-- ==== Sys2Proof/Word.lean ====
section
/-! DEFINITION. The widths of the CORE: bytes (R11), 32-bit register values (R11), blocks of 16 bytes read as
128-bit strings, byte 0 leftmost (R12, R110), and 12-byte nonces (R7). -/

namespace Sys2Proof

/-- A byte (R11). -/
abbrev Byte := BitVec 8

/-- The value of a 32-bit register, and a word of the AES key schedule (R11, R98). -/
abbrev Word := BitVec 32

/-- A block of 16 bytes as the 128-bit string of R110: bit 127 of the `BitVec` is the spec's bit 0, the most
significant bit of byte 0. -/
abbrev Block := BitVec 128

/-- `NONCE_BYTES` = 12 bytes (R7). -/
abbrev Nonce := Vector Byte 12

end Sys2Proof
end

