-- ==== Sys2Proof/Machine/Bytes.lean ====
section
/-! DEFINITION. Byte strings and their readings as integers and blocks (R12, R13, R110). -/

namespace Sys2Proof.Machine

/-- Byte `i` of a block (R12): byte 0 is the leftmost, the most significant (R110). -/
def byteOf (b : Block) (i : Nat) : Byte := b.extractLsb' (120 - 8 * i) 8

/-- The 16 bytes of a block, in order. -/
def toBytes (b : Block) : List Byte := (List.range 16).map (byteOf b)

/-- The block whose bytes are `l`, first byte leftmost (for the 16 bytes of a block). -/
def ofBytes (l : List Byte) : Block := l.foldl (fun acc b => (acc <<< 8) ||| b.setWidth 128) 0

/-- `int_be` (R13): a byte string read most significant byte first. -/
def intBe (l : List Byte) : Nat := l.foldl (fun acc b => acc * 256 + b.toNat) 0

/-- `be64(n)` (R13). -/
def be64 (n : Nat) : List Byte := (List.range 8).map fun i => BitVec.ofNat 8 (n / 256 ^ (7 - i))

/-- The byte-wise exclusive OR of two byte strings, cut to the shorter (R12, R116). -/
def xorBytes (a b : List Byte) : List Byte := List.zipWith (· ^^^ ·) a b

/-- The 12-byte string of a 96-bit integer, most significant byte first (R136). -/
def nonceOfNat (n : Nat) : Nonce :=
  #v[BitVec.ofNat 8 (n / 256 ^ 11), BitVec.ofNat 8 (n / 256 ^ 10), BitVec.ofNat 8 (n / 256 ^ 9),
     BitVec.ofNat 8 (n / 256 ^ 8), BitVec.ofNat 8 (n / 256 ^ 7), BitVec.ofNat 8 (n / 256 ^ 6),
     BitVec.ofNat 8 (n / 256 ^ 5), BitVec.ofNat 8 (n / 256 ^ 4), BitVec.ofNat 8 (n / 256 ^ 3),
     BitVec.ofNat 8 (n / 256 ^ 2), BitVec.ofNat 8 (n / 256), BitVec.ofNat 8 n]

/-- `k` bytes of `n`, least significant first: the byte lanes of R55. -/
def bytesLE : Nat → Nat → List Byte
  | 0, _ => []
  | k + 1, n => BitVec.ofNat 8 n :: bytesLE k (n / 256)

/-- The integer of a byte string read least significant byte first (R55). -/
def natLE : List Byte → Nat
  | [] => 0
  | b :: l => b.toNat + 256 * natLE l

end Sys2Proof.Machine
end

