-- ==== Sys2Proof/Syntax.lean ====
section
/-! DEFINITION. The instructions: one constructor per row of spec/opcode_table.json, with the encoded objects of
30_encoding.md (R70) and the registers and transactions of 20_memory.md (R51, R53). -/

namespace Sys2Proof

/-- An instruction: a command word (Format C), a legal host transaction (Format T) or an internal operation. -/
inductive Instr where
  /-- `SEAL` (R140, R141) -/
  | sealCmd
  /-- `OPEN` (R150, R151) -/
  | openCmd
  /-- `CLEAR` (R160) -/
  | clearCmd
  /-- `RD32 CTRL` -/
  | rd32Ctrl
  /-- `WR32 CTRL, data` -/
  | wr32Ctrl (data : Word)
  /-- `RD32 STATUS` -/
  | rd32Status
  /-- `WR32 STATUS, data` -/
  | wr32Status (data : Word)
  /-- `RD32 CMD` -/
  | rd32Cmd
  /-- `WR32 CMD, data` -/
  | wr32Cmd (data : Word)
  /-- `RD32 KEYLEN` -/
  | rd32Keylen
  /-- `WR32 KEYLEN, data` -/
  | wr32Keylen (data : Word)
  /-- `RD32 NONCELEN` -/
  | rd32Noncelen
  /-- `WR32 NONCELEN, data` -/
  | wr32Noncelen (data : Word)
  /-- `RD32 ILEN` -/
  | rd32Ilen
  /-- `WR32 ILEN, data` -/
  | wr32Ilen (data : Word)
  /-- `RD32 OLEN` -/
  | rd32Olen
  /-- `WR32 OLEN, data` -/
  | wr32Olen (data : Word)
  /-- `RD8 KEYIN` -/
  | rd8Keyin
  /-- `WR8 KEYIN, data` -/
  | wr8Keyin (data : Byte)
  /-- `RD8 NONCEIN` -/
  | rd8Noncein
  /-- `WR8 NONCEIN, data` -/
  | wr8Noncein (data : Byte)
  /-- `RD8 DIN` -/
  | rd8Din
  /-- `WR8 DIN, data` -/
  | wr8Din (data : Byte)
  /-- `RD8 DOUT` -/
  | rd8Dout
  /-- `WR8 DOUT, data` -/
  | wr8Dout (data : Byte)
  /-- `RD8 NONCE+0` -/
  | rd8Nonce0
  /-- `WR8 NONCE+0, data` -/
  | wr8Nonce0 (data : Byte)
  /-- `RD8 NONCE+1` -/
  | rd8Nonce1
  /-- `WR8 NONCE+1, data` -/
  | wr8Nonce1 (data : Byte)
  /-- `RD8 NONCE+2` -/
  | rd8Nonce2
  /-- `WR8 NONCE+2, data` -/
  | wr8Nonce2 (data : Byte)
  /-- `RD8 NONCE+3` -/
  | rd8Nonce3
  /-- `WR8 NONCE+3, data` -/
  | wr8Nonce3 (data : Byte)
  /-- `RD8 NONCE+4` -/
  | rd8Nonce4
  /-- `WR8 NONCE+4, data` -/
  | wr8Nonce4 (data : Byte)
  /-- `RD8 NONCE+5` -/
  | rd8Nonce5
  /-- `WR8 NONCE+5, data` -/
  | wr8Nonce5 (data : Byte)
  /-- `RD8 NONCE+6` -/
  | rd8Nonce6
  /-- `WR8 NONCE+6, data` -/
  | wr8Nonce6 (data : Byte)
  /-- `RD8 NONCE+7` -/
  | rd8Nonce7
  /-- `WR8 NONCE+7, data` -/
  | wr8Nonce7 (data : Byte)
  /-- `RD8 NONCE+8` -/
  | rd8Nonce8
  /-- `WR8 NONCE+8, data` -/
  | wr8Nonce8 (data : Byte)
  /-- `RD8 NONCE+9` -/
  | rd8Nonce9
  /-- `WR8 NONCE+9, data` -/
  | wr8Nonce9 (data : Byte)
  /-- `RD8 NONCE+10` -/
  | rd8Nonce10
  /-- `WR8 NONCE+10, data` -/
  | wr8Nonce10 (data : Byte)
  /-- `RD8 NONCE+11` -/
  | rd8Nonce11
  /-- `WR8 NONCE+11, data` -/
  | wr8Nonce11 (data : Byte)
  /-- `AES.KEYEXP` (R101): reads `KEY`, `KEYLEN`; writes `NR`, `RK` -/
  | aesKeyexp
  /-- `AES.CIPHER` (R102) of the block `input` -/
  | aesCipher (input : Block)
  /-- `GCM.GFMUL` (R111): `x` times `y` -/
  | gcmGfmul (x y : Block)
  /-- `GCM.INC32` (R112) of the block `b` -/
  | gcmInc32 (b : Block)
  /-- `GCM.GHASH` (R115) of the encrypted bytes `c` under `H` -/
  | gcmGhash (c : List Byte)
  /-- `GCM.GCTR` (R116) of `x` from the initial counter block `icb` -/
  | gcmGctr (icb : Block) (x : List Byte)
  /-- `GCM.INIT` (R117, R118) for the message nonce `nonce` -/
  | gcmInit (nonce : Nonce)
  /-- `GCM.TAG` (R119) for the hash `hash` -/
  | gcmTag (hash : Block)
  /-- `GCM.TAGEQ` (R121) of the received tag `t` and the computed tag `TAGC` -/
  | gcmTageq (t : Block)
  /-- `NGEN.DRAW` (R132) -/
  | ngenDraw
deriving DecidableEq, Repr

/-- The encoded objects a host program is written in (R70): the 64-bit host transaction word (R71) and the 32-bit
command word (R73), the latter carried by a `WR32 CMD`. -/
inductive TraceWord where
  | htw (w : BitVec 64)
  | command (v : Word)
deriving DecidableEq, Repr

/-- The size of a host transaction: 1, 2 or 4 bytes (R51). -/
inductive AccessSize where
  | b1
  | b2
  | b4
deriving DecidableEq, Repr

/-- A host transaction (R51): direction, size, offset in the register block, and the value of a write. -/
structure Transaction where
  write : Bool
  size : AccessSize
  off : BitVec 8
  data : Word
deriving DecidableEq, Repr

/-- The registers and ports of the address map (R53). -/
inductive Reg where
  | ctrl
  | status
  | cmd
  | keylen
  | noncelen
  | ilen
  | olen
  | keyin
  | noncein
  | din
  | dout
  | nonce (i : Fin 12)
deriving DecidableEq, Repr

end Sys2Proof
end

