-- ==== Sys2Proof/Decode.lean ====
section
/-! DEFINITION. Decoding the encoded objects of 30_encoding.md (R70 to R74, R81) and, after it, encoding them. -/

namespace Sys2Proof

/-- Why a trace word is no instruction. `illegalAccess` and `reservedCommand` have a meaning on the hardware
(`BUSERR`, R58; ignored with `PROTO`, R74); the others are malformed trace text, which R71 says a decoder refuses. -/
inductive DecodeError where
  /-- `SZ` = 3 (R71) -/
  | reservedSize
  /-- bits 60:40 are not zero (R71) -/
  | nonzeroReserved
  /-- the value of a 1- or 2-byte write is wider than the write (R71) -/
  | dataTooWide
  /-- a read with `DATA` other than 0 (R71) -/
  | readWithData
  /-- neither 4 bytes (a command word) nor 8 (a host transaction word) (R78) -/
  | wrongLength
  /-- a well-formed transaction that R54 makes illegal -/
  | illegalAccess
  /-- a command word other than `SEAL`, `OPEN`, `CLEAR` (R73, R74) -/
  | reservedCommand
deriving DecidableEq, Repr

/-- The field `SZ` (R71). -/
def sizeOfCode (sz : BitVec 2) : Option AccessSize :=
  if sz = 0 then some .b1 else if sz = 1 then some .b2 else if sz = 2 then some .b4 else none

/-- The bits of `DATA` that a transaction of this size may use (R71). -/
def AccessSize.dataBits (size : AccessSize) : Nat :=
  match size with
  | .b1 => 8
  | .b2 => 16
  | .b4 => 32

/-- The fields of a host transaction word (R71). -/
def parseHtw (w : BitVec 64) : Except DecodeError Transaction :=
  match sizeOfCode (w.extractLsb' 61 2) with
  | none => .error .reservedSize
  | some size =>
    if w.extractLsb' 40 21 ≠ 0 then .error .nonzeroReserved
    else if w.getLsbD 63 then
      if w.extractLsb' 0 32 >>> size.dataBits ≠ 0 then .error .dataTooWide
      else .ok ⟨true, size, w.extractLsb' 32 8, w.extractLsb' 0 32⟩
    else if w.extractLsb' 0 32 ≠ 0 then .error .readWithData
    else .ok ⟨false, size, w.extractLsb' 32 8, 0⟩

/-- The offset of a register in the block (R53). -/
def Reg.offset (r : Reg) : BitVec 8 :=
  match r with
  | .ctrl => 0x00
  | .status => 0x04
  | .cmd => 0x08
  | .keylen => 0x0c
  | .noncelen => 0x10
  | .ilen => 0x14
  | .olen => 0x18
  | .keyin => 0x20
  | .noncein => 0x21
  | .din => 0x22
  | .dout => 0x23
  | .nonce i => 0x30 + BitVec.ofNat 8 i.val

/-- The one legal width of a register (R54). -/
def Reg.size (r : Reg) : AccessSize :=
  match r with
  | .ctrl | .status | .cmd | .keylen | .noncelen | .ilen | .olen => .b4
  | .keyin | .noncein | .din | .dout | .nonce _ => .b1

/-- Every register of the block, in the order of R53. -/
def Reg.all : List Reg :=
  [.ctrl, .status, .cmd, .keylen, .noncelen, .ilen, .olen, .keyin, .noncein, .din, .dout,
   .nonce 0, .nonce 1, .nonce 2, .nonce 3, .nonce 4, .nonce 5, .nonce 6, .nonce 7, .nonce 8, .nonce 9,
   .nonce 10, .nonce 11]

/-- The register that a legal (offset, size) pair reaches; none when the pair is illegal (R54). -/
def Reg.ofAccess (off : BitVec 8) (size : AccessSize) : Option Reg :=
  Reg.all.find? fun r => r.offset == off && r.size == size

/-- The instruction that reads a register (R81). -/
def readInstr (r : Reg) : Instr :=
  match r with
  | .ctrl => .rd32Ctrl
  | .status => .rd32Status
  | .cmd => .rd32Cmd
  | .keylen => .rd32Keylen
  | .noncelen => .rd32Noncelen
  | .ilen => .rd32Ilen
  | .olen => .rd32Olen
  | .keyin => .rd8Keyin
  | .noncein => .rd8Noncein
  | .din => .rd8Din
  | .dout => .rd8Dout
  | .nonce 0 => .rd8Nonce0
  | .nonce 1 => .rd8Nonce1
  | .nonce 2 => .rd8Nonce2
  | .nonce 3 => .rd8Nonce3
  | .nonce 4 => .rd8Nonce4
  | .nonce 5 => .rd8Nonce5
  | .nonce 6 => .rd8Nonce6
  | .nonce 7 => .rd8Nonce7
  | .nonce 8 => .rd8Nonce8
  | .nonce 9 => .rd8Nonce9
  | .nonce 10 => .rd8Nonce10
  | .nonce 11 => .rd8Nonce11

/-- The instruction that writes a register (R81); a byte register takes `DATA[7:0]` (R71). -/
def writeInstr (r : Reg) (data : Word) : Instr :=
  match r with
  | .ctrl => .wr32Ctrl data
  | .status => .wr32Status data
  | .cmd => .wr32Cmd data
  | .keylen => .wr32Keylen data
  | .noncelen => .wr32Noncelen data
  | .ilen => .wr32Ilen data
  | .olen => .wr32Olen data
  | .keyin => .wr8Keyin (data.setWidth 8)
  | .noncein => .wr8Noncein (data.setWidth 8)
  | .din => .wr8Din (data.setWidth 8)
  | .dout => .wr8Dout (data.setWidth 8)
  | .nonce 0 => .wr8Nonce0 (data.setWidth 8)
  | .nonce 1 => .wr8Nonce1 (data.setWidth 8)
  | .nonce 2 => .wr8Nonce2 (data.setWidth 8)
  | .nonce 3 => .wr8Nonce3 (data.setWidth 8)
  | .nonce 4 => .wr8Nonce4 (data.setWidth 8)
  | .nonce 5 => .wr8Nonce5 (data.setWidth 8)
  | .nonce 6 => .wr8Nonce6 (data.setWidth 8)
  | .nonce 7 => .wr8Nonce7 (data.setWidth 8)
  | .nonce 8 => .wr8Nonce8 (data.setWidth 8)
  | .nonce 9 => .wr8Nonce9 (data.setWidth 8)
  | .nonce 10 => .wr8Nonce10 (data.setWidth 8)
  | .nonce 11 => .wr8Nonce11 (data.setWidth 8)

/-- The instruction of a transaction, or `illegalAccess` when it is answered `BUSERR` (R54, R58). -/
def decodeTransaction (t : Transaction) : Except DecodeError Instr :=
  match Reg.ofAccess t.off t.size with
  | none => .error .illegalAccess
  | some r => .ok (if t.write then writeInstr r t.data else readInstr r)

/-- Format T (R71, R72). -/
def decodeHtw (w : BitVec 64) : Except DecodeError Instr :=
  match parseHtw w with
  | .error e => .error e
  | .ok t => decodeTransaction t

/-- Format C (R73). -/
def decodeCommand (v : Word) : Except DecodeError Instr :=
  if v = 1 then .ok .sealCmd
  else if v = 2 then .ok .openCmd
  else if v = 3 then .ok .clearCmd
  else .error .reservedCommand

/-- The decoder: no mode bit changes it (R70). -/
def decode (t : TraceWord) : Except DecodeError Instr :=
  match t with
  | .htw w => decodeHtw w
  | .command v => decodeCommand v

/-- The trace word in a string of bytes, least significant first (DESIGN CHOICE, log 12): 4 bytes are a command
word, 8 bytes a host transaction word (R78). -/
def traceWordOfBytes (l : List Byte) : Except DecodeError TraceWord :=
  if l.length = 4 then .ok (.command (BitVec.ofNat 32 (Machine.natLE l)))
  else if l.length = 8 then .ok (.htw (BitVec.ofNat 64 (Machine.natLE l)))
  else .error .wrongLength

/-- The decoder on any string of bytes. -/
def decodeBytes (l : List Byte) : Except DecodeError Instr :=
  match traceWordOfBytes l with
  | .error e => .error e
  | .ok t => decode t

/-- The bytes of a table row's word: a row of at most 32 bits is a command word of 4 bytes, any other a host
transaction word of 8. -/
def tableBytes (nbits w : Nat) : List Byte :=
  Machine.bytesLE (if nbits ≤ 32 then 4 else 8) (w % 2 ^ nbits)

/-- The instruction the decoder reads from an opcode-table word of `nbits` bits. -/
def decodeTableWord (nbits w : Nat) : Option Instr :=
  match decodeBytes (tableBytes nbits w) with
  | .ok i => some i
  | .error _ => none

/-- The code of a size in the field `SZ` (R71). -/
def AccessSize.code (size : AccessSize) : BitVec 2 :=
  match size with
  | .b1 => 0
  | .b2 => 1
  | .b4 => 2

/-- A host transaction word from its fields, most significant first: `W`, `SZ`, zero, `OFF`, `DATA` (R71). -/
def htwOf (write : Bool) (size : AccessSize) (off : BitVec 8) (data : Word) : BitVec 64 :=
  BitVec.ofBool write ++ size.code ++ 0#21 ++ off ++ data

/-- The word of a read of `r` (R71, R81). -/
def readWord (r : Reg) : TraceWord := .htw (htwOf false r.size r.offset 0)

/-- The word of a write of `data` to `r` (R71, R81). -/
def writeWord (r : Reg) (data : Word) : TraceWord := .htw (htwOf true r.size r.offset data)

/-- The encoder: none for an internal operation, which has no encoding (R82). -/
def encode (i : Instr) : Option TraceWord :=
  match i with
  | .sealCmd => some (.command 1)
  | .openCmd => some (.command 2)
  | .clearCmd => some (.command 3)
  | .rd32Ctrl => some (readWord .ctrl)
  | .wr32Ctrl data => some (writeWord .ctrl data)
  | .rd32Status => some (readWord .status)
  | .wr32Status data => some (writeWord .status data)
  | .rd32Cmd => some (readWord .cmd)
  | .wr32Cmd data => some (writeWord .cmd data)
  | .rd32Keylen => some (readWord .keylen)
  | .wr32Keylen data => some (writeWord .keylen data)
  | .rd32Noncelen => some (readWord .noncelen)
  | .wr32Noncelen data => some (writeWord .noncelen data)
  | .rd32Ilen => some (readWord .ilen)
  | .wr32Ilen data => some (writeWord .ilen data)
  | .rd32Olen => some (readWord .olen)
  | .wr32Olen data => some (writeWord .olen data)
  | .rd8Keyin => some (readWord .keyin)
  | .wr8Keyin data => some (writeWord .keyin (data.setWidth 32))
  | .rd8Noncein => some (readWord .noncein)
  | .wr8Noncein data => some (writeWord .noncein (data.setWidth 32))
  | .rd8Din => some (readWord .din)
  | .wr8Din data => some (writeWord .din (data.setWidth 32))
  | .rd8Dout => some (readWord .dout)
  | .wr8Dout data => some (writeWord .dout (data.setWidth 32))
  | .rd8Nonce0 => some (readWord (.nonce 0))
  | .wr8Nonce0 data => some (writeWord (.nonce 0) (data.setWidth 32))
  | .rd8Nonce1 => some (readWord (.nonce 1))
  | .wr8Nonce1 data => some (writeWord (.nonce 1) (data.setWidth 32))
  | .rd8Nonce2 => some (readWord (.nonce 2))
  | .wr8Nonce2 data => some (writeWord (.nonce 2) (data.setWidth 32))
  | .rd8Nonce3 => some (readWord (.nonce 3))
  | .wr8Nonce3 data => some (writeWord (.nonce 3) (data.setWidth 32))
  | .rd8Nonce4 => some (readWord (.nonce 4))
  | .wr8Nonce4 data => some (writeWord (.nonce 4) (data.setWidth 32))
  | .rd8Nonce5 => some (readWord (.nonce 5))
  | .wr8Nonce5 data => some (writeWord (.nonce 5) (data.setWidth 32))
  | .rd8Nonce6 => some (readWord (.nonce 6))
  | .wr8Nonce6 data => some (writeWord (.nonce 6) (data.setWidth 32))
  | .rd8Nonce7 => some (readWord (.nonce 7))
  | .wr8Nonce7 data => some (writeWord (.nonce 7) (data.setWidth 32))
  | .rd8Nonce8 => some (readWord (.nonce 8))
  | .wr8Nonce8 data => some (writeWord (.nonce 8) (data.setWidth 32))
  | .rd8Nonce9 => some (readWord (.nonce 9))
  | .wr8Nonce9 data => some (writeWord (.nonce 9) (data.setWidth 32))
  | .rd8Nonce10 => some (readWord (.nonce 10))
  | .wr8Nonce10 data => some (writeWord (.nonce 10) (data.setWidth 32))
  | .rd8Nonce11 => some (readWord (.nonce 11))
  | .wr8Nonce11 data => some (writeWord (.nonce 11) (data.setWidth 32))
  | .aesKeyexp | .aesCipher _ | .gcmGfmul _ _ | .gcmInc32 _ | .gcmGhash _ | .gcmGctr _ _ | .gcmInit _
  | .gcmTag _ | .gcmTageq _ | .ngenDraw => none

end Sys2Proof
end

