-- ==== Sys2Proof/Config.lean ====
section
/-! DEFINITION. What an implementation fixes (00_scope.md R9: `BUF_BYTES`, `BASE`, `RBP`) and the free values, which
nothing in Lean can evaluate. -/

namespace Sys2Proof

/-- An answer of the random-byte provider: exactly 12 bytes, or a failure (R131). -/
inductive Answer where
  | ok (n : Nonce)
  | fail
deriving DecidableEq, Repr, Inhabited

/-- The random-byte provider `RBP`, a parameter of the model (R9, R131): a production provider, whose every answer
is a draw (R133), or one of the two deterministic providers of R136. -/
inductive Provider where
  | production
  | detList (answers : List Answer)
  | detCounter (seed : Nonce)
deriving DecidableEq, Repr, Inhabited

/-- The parameters of R9. The types admit exactly the legal values (4294967279 = 2^32 - 17): `BUF_BYTES` = `bufAbove16` + 16 is 16 to
2^32 - 2, and `BASE` = 256 * `baseBlock` is a multiple of 256 (U19: nothing is defined for other values). -/
structure Params where
  bufAbove16 : Fin 4294967279
  baseBlock : Nat
  rbp : Provider
deriving DecidableEq, Repr, Inhabited

/-- `BUF_BYTES` (R9). -/
def Params.bufBytes (p : Params) : Nat := p.bufAbove16.val + 16

/-- `BASE` (R9, R52). -/
def Params.base (p : Params) : Nat := 256 * p.baseBlock

/-- The parameters of the CORE that leaves reset: no value is chosen (DESIGN CHOICE, log 5). -/
opaque Config.params : Params

/-- Round key `r` that `AES.KEYEXP` leaves for a key of neither 16 nor 32 bytes: the spec states none (log 8). -/
opaque Config.unstatedRoundKey : List Byte → Nat → Block

/-- What a read of `RK[r]` beyond `RK[14]` gives: the spec has no such register (log 9). -/
opaque Config.absentRoundKey : Nat → Block

end Sys2Proof
end

