-- ==== Sys2Proof/Machine/State.lean ====
section
/-! DEFINITION. The state of the CORE (10_state.md), plain data, and its value after reset (R38). -/

namespace Sys2Proof.Machine

/-- Nothing stops this machine: in every state after a reset each host transaction has a defined outcome (R243,
R244), an illegal access is a response (R58) and an error of a command is a next state (R205). So no step raises a
fault, and the type has no constructor. -/
inductive Fault where
deriving DecidableEq, Repr

/-- Why the model gives no next state. -/
inductive Refusal where
  /-- Raised by an arm of `exec` for an instruction without a meaning yet. Safe. -/
  | notModelled (mnemonic : String)
  /-- Raised by `step` on a trace word that breaks a "must be 0" rule or has `SZ` = 3: R71 says it writes down no
  transaction and a decoder refuses it. Safe: the hardware cannot meet it. -/
  | malformedWord
  /-- Raised by `step` in a state that holds a value no transition produces (93_implementation_defined.md U8: "no
  behaviour defined from such a state"), unless the event is a reset. Safe (log 10). -/
  | unreachableState
deriving DecidableEq, Repr

/-- `PHASE` (R22); its fourth code is never held. -/
inductive Phase where
  | idle
  | busy
  | done
deriving DecidableEq, Repr

/-- `RUNCMD` (R41); its fourth code is never held. -/
inductive RunCmd where
  | none
  | sealing
  | opening
deriving DecidableEq, Repr

/-- The error names of R76, numbered there; `decodeError` is the host wrapper's and never in `ERR`. -/
inductive ErrCode where
  | none
  | invalidKeyLength
  | invalidNonceLength
  | decodeError
  | randomnessFailure
  | authenticationFailure
  | lengthLimit
deriving DecidableEq, Repr

/-- How far the request to the RBP is (R20 (c), R36, R38, log 3): the RBP has received none, it has received it as its
request number `k` (from 0) and not answered, or it has answered. -/
inductive RbpRequest where
  | idle
  | waiting (k : Nat)
  | answered (a : Answer)
deriving DecidableEq, Repr

/-- The CORE's answer to the latest host transaction (R51): nothing yet, `OK` to a write, `OK` with a 4-byte or a
1-byte value to a read, or `BUSERR`. -/
inductive BusResponse where
  | none
  | okWrite
  | ok32 (v : Word)
  | ok8 (v : Byte)
  | buserr
deriving DecidableEq, Repr

/-- What an internal operation returned when it was run by itself (the "returns" of R102, R111 to R121, R132). -/
inductive OpResult where
  | none
  | block (b : Block)
  | bytes (l : List Byte)
  | bit (b : Bool)
  | nonce (n : Nonce)
deriving DecidableEq, Repr

/-- A turn of an agent other than the host (R10). -/
inductive Turn where
  /-- the Engine's, whose one step is `Complete` (R10, R141, R151) -/
  | engine
  /-- the RBP receives the request of the draw that is pending, and has not answered it yet (R131, R239) -/
  | request
  /-- the RBP answers, with the draw a production provider makes (R131, R133) -/
  | rbp (draw : Answer)
  /-- the RBP receives a request of another instance that shares it (R138) -/
  | otherRequest
deriving DecidableEq, Repr

/-- One element of the sequence of R62 and R244: a host transaction (written as a trace word, or at a bus address,
R52), a turn of the Engine or of the RBP, or a reset. -/
inductive Event where
  | word (w : TraceWord)
  | busAccess (write : Bool) (size : AccessSize) (addr : Nat) (data : Word)
  | turn (t : Turn)
  | reset
deriving DecidableEq, Repr

/-- The state of the CORE. The fields before `params` are the spec's (10_state.md R20); `params` and those after it
are the model's own (the parameters of R9, the request count of R244, the last response, the last result, and the
events still to come). -/
structure State where
  /-- `CTRL.IE` (R21) -/
  ie : Bool
  /-- `PHASE` (R22) -/
  phase : Phase
  /-- `PROTO` (R24) -/
  proto : Bool
  /-- `ERR` (R25) -/
  err : ErrCode
  /-- `KEY[0..31]` (R26) -/
  key : Vector Byte 32
  /-- `KEYLEN` (R26) -/
  keylen : Word
  /-- `NONCE[0..11]` (R29) -/
  nonce : Nonce
  /-- `NONCELEN` (R29) -/
  noncelen : Word
  /-- `IBUF` (R27): the bytes pushed and kept, in order -/
  ibuf : List Byte
  /-- `ILEN` (R27) -/
  ilen : Word
  /-- `OBUF` (R28): the bytes of the result, in order -/
  obuf : List Byte
  /-- `OLEN` (R28) -/
  olen : Word
  /-- `OPTR` (R30) -/
  optr : Nat
  /-- `RUNCMD` (R41) -/
  runcmd : RunCmd
  /-- how far the pending RBP request is (R20, R36) -/
  rbpReq : RbpRequest
  /-- `RK[0..14]` (R33) -/
  rk : Vector Block 15
  /-- `NR` (R33) -/
  nr : BitVec 4
  /-- `S` (R33) -/
  sreg : Block
  /-- `H` (R33) -/
  hreg : Block
  /-- `J0` (R33) -/
  j0 : Block
  /-- `CB` (R33, R34) -/
  cb : Block
  /-- `Y` (R33) -/
  yreg : Block
  /-- `EKJ0` (R33) -/
  ekj0 : Block
  /-- `TAGC` (R33) -/
  tagc : Block
  /-- the parameters (R9), which no step writes -/
  params : Params
  /-- the number of requests the RBP has received (R244), those of other instances that share it included (R138) -/
  rbpRequests : Nat
  /-- the response to the latest host transaction (R51) -/
  bus : BusResponse
  /-- the result of the latest internal operation run by itself -/
  result : OpResult
  /-- the events still to come, first first (R62) -/
  events : List Event
deriving DecidableEq, Repr

/-- The state after reset (R38), with the parameters left open, no request made yet and no event to come (log 19). -/
def State.reset : State where
  ie := false
  phase := .idle
  proto := false
  err := .none
  key := Vector.replicate 32 0
  keylen := 0
  nonce := Vector.replicate 12 0
  noncelen := 0
  ibuf := []
  ilen := 0
  obuf := []
  olen := 0
  optr := 0
  runcmd := .none
  rbpReq := .idle
  rk := Vector.replicate 15 0
  nr := 0
  sreg := 0
  hreg := 0
  j0 := 0
  cb := 0
  yreg := 0
  ekj0 := 0
  tagc := 0
  params := Config.params
  rbpRequests := 0
  bus := .none
  result := .none
  events := []

end Sys2Proof.Machine
end

