-- ==== Sys2Proof/Machine/Flags.lean ====
section
/-! DEFINITION. The interrupt output, the fields of `STATUS` and `CTRL`, and the numbers of the error names. -/

namespace Sys2Proof.Machine

/-- The number of an error name (R76). -/
def ErrCode.code (e : ErrCode) : BitVec 4 :=
  match e with
  | .none => 0
  | .invalidKeyLength => 1
  | .invalidNonceLength => 2
  | .decodeError => 3
  | .randomnessFailure => 4
  | .authenticationFailure => 5
  | .lengthLimit => 6

/-- The error name of a number; none for the reserved numbers 7 to 15 (R76). -/
def errOfCode (c : BitVec 4) : Option ErrCode :=
  match c.toNat with
  | 0 => some .none
  | 1 => some .invalidKeyLength
  | 2 => some .invalidNonceLength
  | 3 => some .decodeError
  | 4 => some .randomnessFailure
  | 5 => some .authenticationFailure
  | 6 => some .lengthLimit
  | _ => none

/-- The value of `PHASE` (R22). -/
def Phase.code (p : Phase) : BitVec 2 :=
  match p with
  | .idle => 0
  | .busy => 1
  | .done => 2

/-- The output `irq`, a level (R32, R210). -/
def State.irq (s : State) : Bool := s.ie && decide (s.phase = .done)

/-- The value of `STATUS` (R23): bits 31:8 zero, `ERR`, `IRQ`, `PROTO`, `PHASE`. -/
def State.status (s : State) : Word :=
  0#24 ++ s.err.code ++ BitVec.ofBool s.irq ++ BitVec.ofBool s.proto ++ s.phase.code

/-- The value of `CTRL` (R21): bits 31:1 read 0. -/
def State.ctrl (s : State) : Word := 0#31 ++ BitVec.ofBool s.ie

end Sys2Proof.Machine
end

