-- ==== Sys2Proof/Machine/Operands.lean ====
section
/-! DEFINITION. The operands of commands and transactions: the key and message a command reads, the round keys, the
register value of a read, and the offset of a bus address. -/

namespace Sys2Proof.Machine

/-- `KEY[0..KEYLEN)` (R26, R77). -/
def State.keyBytes (s : State) : List Byte := s.key.toList.take s.keylen.toNat

/-- The message a command reads: `IBUF[0..n)` with n = min(`ILEN`, `BUF_BYTES`) (R27). -/
def State.message (s : State) : List Byte := s.ibuf.take (min s.ilen.toNat s.params.bufBytes)

/-- `RK[r]` (R33); beyond `RK[14]` there is no register (log 9). -/
def State.roundKey (s : State) (r : Nat) : Block :=
  if h : r < 15 then s.rk[r] else Config.absentRoundKey r

/-- The offset of a bus address in the register block, if it lies in it (R52). -/
def busOffset (p : Params) (addr : Nat) : Option (BitVec 8) :=
  if p.base ≤ addr ∧ addr < p.base + 256 then some (BitVec.ofNat 8 (addr - p.base)) else none

/-- No field holds a value of 93_implementation_defined.md U8 (`PHASE` = 3, `RUNCMD` = 3 and `ERR` over 6 have no
place in the types). -/
def State.held (s : State) : Bool :=
  decide (s.keylen.toNat ≤ 33) && decide (s.noncelen.toNat ≤ 13) && decide (s.ilen.toNat ≤ s.params.bufBytes + 1) &&
  decide (s.olen.toNat ≤ s.params.bufBytes) && decide (s.err ≠ .decodeError)

end Sys2Proof.Machine
end

