-- ==== Sys2Proof/Machine/Ops.lean ====
section
/-! DEFINITION. The shared operations over the registers: responses, pushes, the pop, register reads and writes
(R56, R57), commands, the two commits (R204, R205) and reset (R230). -/

namespace Sys2Proof.Machine

/-- Answer a transaction (R51). -/
def State.respond (s : State) (r : BusResponse) : State := { s with bus := r }

/-- An illegal transaction: `BUSERR` and no other change (R58). -/
def busError (s : State) : State := s.respond .buserr

/-- A legal write that is ignored: answered `OK`, nothing changes but `PROTO` (R167, R168). -/
def ignoreWrite (s : State) : State := { s with proto := true, bus := .okWrite }

/-- Write of `CTRL` (R161). -/
def writeCtrl (v : Word) (s : State) : State := { s with ie := v.getLsbD 0, bus := .okWrite }

/-- Push on `KEYIN` (R163). -/
def pushKey (v : Byte) (s : State) : State :=
  if s.phase = .idle then
    { s with
      key := s.key.setIfInBounds s.keylen.toNat v
      keylen := BitVec.ofNat 32 (min (s.keylen.toNat + 1) 33)
      bus := .okWrite }
  else ignoreWrite s

/-- Push on `NONCEIN` (R164). -/
def pushNonce (v : Byte) (s : State) : State :=
  if s.phase = .idle then
    { s with
      nonce := s.nonce.setIfInBounds s.noncelen.toNat v
      noncelen := BitVec.ofNat 32 (min (s.noncelen.toNat + 1) 13)
      bus := .okWrite }
  else ignoreWrite s

/-- Push on `DIN` (R165): the byte goes to `IBUF[ILEN]`, the end of the bytes kept. -/
def pushData (v : Byte) (s : State) : State :=
  if s.phase = .idle then
    { s with
      ibuf := if s.ilen.toNat < s.params.bufBytes then s.ibuf ++ [v] else s.ibuf
      ilen := BitVec.ofNat 32 (min (s.ilen.toNat + 1) (s.params.bufBytes + 1))
      bus := .okWrite }
  else ignoreWrite s

/-- Pop on `DOUT`, in every phase (R166). -/
def popData (s : State) : State :=
  if s.optr < s.olen.toNat then { s with optr := s.optr + 1, bus := .ok8 (s.obuf.getD s.optr 0x00) }
  else { s with proto := true, bus := .ok8 0x00 }

/-- A legal read (R56): `DOUT` is the only one with a side effect; a write-only register reads 0. -/
def memRead (r : Reg) (s : State) : State :=
  match r with
  | .ctrl => s.respond (.ok32 s.ctrl)
  | .status => s.respond (.ok32 s.status)
  | .cmd => s.respond (.ok32 0)
  | .keylen => s.respond (.ok32 s.keylen)
  | .noncelen => s.respond (.ok32 s.noncelen)
  | .ilen => s.respond (.ok32 s.ilen)
  | .olen => s.respond (.ok32 s.olen)
  | .keyin | .noncein | .din => s.respond (.ok8 0)
  | .dout => popData s
  | .nonce i => s.respond (.ok8 s.nonce[i])

/-- Write of `SEAL` or `OPEN` to `CMD`: accepted in `IDLE` (R140, R150), ignored otherwise (R167). -/
def startCommand (c : RunCmd) (s : State) : State :=
  if s.phase = .idle then { s with phase := .busy, runcmd := c, bus := .okWrite } else ignoreWrite s

/-- `CLEAR` (R160), the return from `DONE` (R212): ignored in `BUSY`; leaves `CTRL`, the scratch registers (zero
outside `BUSY`, R35) and `RUNCMD` (0 outside `BUSY`) alone. -/
def clearCore (s : State) : State :=
  if s.phase = .busy then ignoreWrite s
  else
    { s with
      key := Vector.replicate 32 0, keylen := 0
      nonce := Vector.replicate 12 0, noncelen := 0
      ibuf := [], ilen := 0
      obuf := [], olen := 0, optr := 0
      err := .none, proto := false
      phase := .idle
      bus := .okWrite }

/-- Write of `CMD` (R31, R73): the three commands, anything else reserved (R74, R162). -/
def writeCommand (v : Word) (s : State) : State :=
  if v = 1 then startCommand .sealing s
  else if v = 2 then startCommand .opening s
  else if v = 3 then clearCore s
  else ignoreWrite s

/-- A legal write (R57): a byte register takes `v[7:0]`; a read-only register drops the value and sets `PROTO`. -/
def memWrite (r : Reg) (v : Word) (s : State) : State :=
  match r with
  | .ctrl => writeCtrl v s
  | .cmd => writeCommand v s
  | .keyin => pushKey (v.setWidth 8) s
  | .noncein => pushNonce (v.setWidth 8) s
  | .din => pushData (v.setWidth 8) s
  | .status | .keylen | .noncelen | .ilen | .olen | .dout | .nonce _ => ignoreWrite s

/-- The zeroisation both commits make (R35, R204, R205): key, input, scratch registers, `RUNCMD`; the request to the
RBP has been answered or was never made. -/
def zeroise (s : State) : State :=
  { s with
    key := Vector.replicate 32 0, keylen := 0
    ibuf := [], ilen := 0
    rk := Vector.replicate 15 0, nr := 0, sreg := 0, hreg := 0, j0 := 0, cb := 0, yreg := 0, ekj0 := 0, tagc := 0
    runcmd := .none, rbpReq := .idle }

/-- `raise <Error>`: the failure commit (R14, R205), this hardware's trap entry. -/
def raiseError (e : ErrCode) (s : State) : State :=
  { zeroise s with
    err := e
    obuf := [], olen := 0, optr := 0
    nonce := Vector.replicate 12 0, noncelen := 0
    phase := .done }

/-- The success commit of a command with the result `out` (R204), leaving `NONCE` and `NONCELEN` alone. -/
def commitResult (out : List Byte) (s : State) : State :=
  { zeroise s with
    err := .none
    obuf := out, olen := BitVec.ofNat 32 out.length, optr := 0
    phase := .done }

/-- The success commit of `SEAL` (R141, R204): the drawn nonce is written too. -/
def commitSeal (n : Nonce) (out : List Byte) (s : State) : State :=
  { commitResult out s with nonce := n, noncelen := 12 }

/-- A reset event (R230, R239): every piece of state of R38 at its reset value; the parameters, the RBP's own count of
requests and the events still to come are not state of the CORE. -/
def resetCore (s : State) : State :=
  { State.reset with params := s.params, rbpRequests := s.rbpRequests, events := s.events }

end Sys2Proof.Machine
end

