-- ==== Sys2Proof/Machine/Commands.lean ====
section
/-! DEFINITION. Format C, the three command words (R73), and the `CMD` register. -/

namespace Sys2Proof.Machine

/-- `SEAL`, written to `CMD`: accepted in `IDLE`, with nothing changed but `PHASE` and `RUNCMD` (R140); the Engine completes
it (R141, `completeSeal`). -/
def execSealCmd (s : State) : Host.Outcome State Fault Refusal := .next (startCommand .sealing s)

/-- `OPEN`, written to `CMD`: accepted in `IDLE` (R150); the Engine completes it (R151, `completeOpen`). -/
def execOpenCmd (s : State) : Host.Outcome State Fault Refusal := .next (startCommand .opening s)

/-- `CLEAR`, written to `CMD` (R160). -/
def execClearCmd (s : State) : Host.Outcome State Fault Refusal := .next (clearCore s)

/-- `RD32 CMD`: write-only, reads 0 (R31, R56). -/
def execRd32Cmd (s : State) : Host.Outcome State Fault Refusal := .next (memRead .cmd s)

/-- `WR32 CMD, data`: a command word (R57, R73, R162). -/
def execWr32Cmd (data : Word) (s : State) : Host.Outcome State Fault Refusal := .next (writeCommand data s)

end Sys2Proof.Machine
end

