-- ==== Sys2Proof/Machine/Aes.lean ====
section
/-! DEFINITION. The AES block cipher core as functions (40_aes_core.md R90 to R103). -/

namespace Sys2Proof.Machine

/-- Multiplication by x in GF(2^8) (R91). -/
def xtime (a : Byte) : Byte := (a <<< 1) ^^^ (if a.getLsbD 7 then 0x1b else 0x00)

/-- One round of the product of R91 on the pair (`r`, `a`). -/
def gmulStep (b : Byte) (p : Byte × Byte) (i : Nat) : Byte × Byte :=
  (if b.getLsbD i then p.1 ^^^ p.2 else p.1, xtime p.2)

/-- The product in GF(2^8) (R91). -/
def gmul (a b : Byte) : Byte := ((List.range 8).foldl (gmulStep b) (0, a)).1

/-- The rows of the table of R93: row `x` holds `SBOX[16x]` to `SBOX[16x + 15]`, leftmost first. -/
def sboxRows : List Block :=
  [0x637c777bf26b6fc53001672bfed7ab76, 0xca82c97dfa5947f0add4a2af9ca472c0,
   0xb7fd9326363ff7cc34a5e5f171d83115, 0x04c723c31896059a071280e2eb27b275,
   0x09832c1a1b6e5aa0523bd6b329e32f84, 0x53d100ed20fcb15b6acbbe394a4c58cf,
   0xd0efaafb434d338545f9027f503c9fa8, 0x51a3408f929d38f5bcb6da2110fff3d2,
   0xcd0c13ec5f974417c4a77e3d645d1973, 0x60814fdc222a908846eeb814de5e0bdb,
   0xe0323a0a4906245cc2d3ac629195e479, 0xe7c8376d8dd54ea96c56f4ea657aae08,
   0xba78252e1ca6b4c6e8dd741f4bbd8b8a, 0x703eb5664803f60e613557b986c11d9e,
   0xe1f8981169d98e949b1e87e9ce5528df, 0x8ca1890dbfe6426841992d0fb054bb16]

/-- `SBOX[a]`: row `a >> 4`, column `a & 0xF` (R93). -/
def sbox (a : Byte) : Byte := byteOf (sboxRows.getD (a.toNat / 16) 0) (a.toNat % 16)

/-- The affine map of R93 that makes `SBOX[a]` from the inverse `b` of `a`: bit `i` from five bits of `b`. -/
def sboxAffine (b : Byte) : Byte :=
  b ^^^ b.rotateLeft 1 ^^^ b.rotateLeft 2 ^^^ b.rotateLeft 3 ^^^ b.rotateLeft 4 ^^^ 0x63

/-- `SubBytes` (R94). -/
def subBytes (s : Block) : Block := ofBytes ((toBytes s).map sbox)

/-- `ShiftRows` (R95): byte `r + 4c` of the result is byte `r + 4((c + r) mod 4)` of the argument. -/
def shiftRows (s : Block) : Block :=
  ofBytes ((List.range 16).map fun i => byteOf s (i % 4 + 4 * ((i / 4 + i % 4) % 4)))

/-- `MixColumns` on a string of columns of 4 bytes (R96). -/
def mixColumnBytes : List Byte → List Byte
  | a0 :: a1 :: a2 :: a3 :: rest =>
    (gmul a0 2 ^^^ gmul a1 3 ^^^ a2 ^^^ a3) :: (a0 ^^^ gmul a1 2 ^^^ gmul a2 3 ^^^ a3) ::
    (a0 ^^^ a1 ^^^ gmul a2 2 ^^^ gmul a3 3) :: (gmul a0 3 ^^^ a1 ^^^ a2 ^^^ gmul a3 2) :: mixColumnBytes rest
  | _ => []

/-- `MixColumns` (R96). -/
def mixColumns (s : Block) : Block := ofBytes (mixColumnBytes (toBytes s))

/-- `AddRoundKey` (R97). -/
def addRoundKey (s k : Block) : Block := s ^^^ k

/-- `RotWord` (R98): the first byte, leftmost, becomes the last. -/
def rotWord (w : Word) : Word := w.rotateLeft 8

/-- `SubWord` (R98). -/
def subWord (w : Word) : Word :=
  sbox (w.extractLsb' 24 8) ++ sbox (w.extractLsb' 16 8) ++ sbox (w.extractLsb' 8 8) ++ sbox (w.extractLsb' 0 8)

/-- The byte `rc_j` of R98, for `j` from 1. -/
def rconByte : Nat → Byte
  | 0 => 0
  | 1 => 0x01
  | j + 2 => xtime (rconByte (j + 1))

/-- `Rcon(j)` (R98). -/
def rcon (j : Nat) : Word := rconByte j ++ 0#24

/-- The words of a key, 4 bytes each, first byte leftmost (R98, R100). -/
def keyWords : List Byte → List Word
  | a :: b :: c :: d :: rest => (a ++ b ++ c ++ d) :: keyWords rest
  | _ => []

/-- The word `t` of R100 for index `i` from the word before it. -/
def scheduleWord (nk i : Nat) (t : Word) : Word :=
  if i % nk = 0 then subWord (rotWord t) ^^^ rcon (i / nk)
  else if nk = 8 ∧ i % nk = 4 then subWord t
  else t

/-- The loop of R100: `fuel` more words from index `i` on; `ws` holds the words so far, latest first. -/
def scheduleLoop (nk : Nat) : Nat → Nat → List Word → List Word
  | 0, _, ws => ws
  | fuel + 1, i, ws => scheduleLoop nk fuel (i + 1) ((ws.getD (nk - 1) 0 ^^^ scheduleWord nk i (ws.headD 0)) :: ws)

/-- The number of rounds `NR` = `Nk` + 6 of a key (R99, R100). -/
def keyRounds (key : List Byte) : Nat := key.length / 4 + 6

/-- `KeyExpansion(key)` (R100): the words `w[0 .. 4(NR + 1))`. -/
def keyExpansion (key : List Byte) : List Word :=
  (scheduleLoop (key.length / 4) (4 * (keyRounds key + 1) - key.length / 4) (key.length / 4)
    (keyWords key).reverse).reverse

/-- Round key `r`: `w[4r] || w[4r+1] || w[4r+2] || w[4r+3]` (R100). -/
def roundKeyOf (key : List Byte) (r : Nat) : Block :=
  (keyExpansion key).getD (4 * r) 0 ++ (keyExpansion key).getD (4 * r + 1) 0 ++
  (keyExpansion key).getD (4 * r + 2) 0 ++ (keyExpansion key).getD (4 * r + 3) 0

/-- One full round with the round key `k` (R102). -/
def aesRound (s k : Block) : Block := addRoundKey (mixColumns (shiftRows (subBytes s))) k

/-- `n` full rounds from round `r` on (R102). -/
def cipherRounds (rk : Nat → Block) : Nat → Nat → Block → Block
  | 0, _, s => s
  | n + 1, r, s => cipherRounds rk n (r + 1) (aesRound s (rk r))

/-- `Cipher` (R102) with `nr` rounds under the round keys `rk`: the last round has no `MixColumns`. -/
def cipher (nr : Nat) (rk : Nat → Block) (input : Block) : Block :=
  addRoundKey (shiftRows (subBytes (cipherRounds rk (nr - 1) 1 (addRoundKey input (rk 0))))) (rk nr)

/-- `CIPH` under a key of 16 or 32 bytes (R102). -/
def cipherUnder (key : List Byte) (input : Block) : Block := cipher (keyRounds key) (roundKeyOf key) input

end Sys2Proof.Machine
end

