-- ==== Sys2Proof/Machine/Gcm.lean ====
section
/-! DEFINITION. The GCM engine as functions of the block cipher `ciph` (41_gcm_primitives.md R110 to R126). -/

namespace Sys2Proof.Machine

/-- The reduction block `R` (R110). -/
def gcmR : Block := 0xe1000000000000000000000000000000

/-- One round of R111 on the pair (`Z`, `V`): bit `X_i` is bit `i` from the left. -/
def gfmulStep (x : Block) (p : Block × Block) (i : Nat) : Block × Block :=
  (if x.getMsbD i then p.1 ^^^ p.2 else p.1,
   if p.2.getMsbD 127 then (p.2 >>> 1) ^^^ gcmR else p.2 >>> 1)

/-- `GCM.GFMUL` (R111). -/
def gfmul (x y : Block) : Block := ((List.range 128).foldl (gfmulStep x) (0, y)).1

/-- `GCM.INC32` (R112). -/
def inc32 (b : Block) : Block := b.extractLsb' 32 96 ++ (b.extractLsb' 0 32 + 1)

/-- `inc32` applied `n` times: the counter block after `n` blocks (R116). -/
def incBy : Nat → Block → Block
  | 0, b => b
  | n + 1, b => incBy n (inc32 b)

/-- `pad16` (R114). -/
def pad16 (x : List Byte) : List Byte := x ++ List.replicate ((16 - x.length % 16) % 16) 0

/-- The hashed string of R115: the padded bytes and the length block, with empty AAD. -/
def ghashInput (c : List Byte) : List Byte := pad16 c ++ be64 0 ++ be64 (8 * c.length)

/-- The loop of R115 over `n` blocks. -/
def ghashLoop (h : Block) : Nat → Block → List Byte → Block
  | 0, y, _ => y
  | n + 1, y, d => ghashLoop h n (gfmul (y ^^^ ofBytes (d.take 16)) h) (d.drop 16)

/-- `GCM.GHASH` (R115). -/
def ghash (h : Block) (c : List Byte) : Block :=
  ghashLoop h ((ghashInput c).length / 16) 0 (ghashInput c)

/-- The number of blocks of `n` bytes, the last perhaps short: `ceil(n/16)` (R116). -/
def blockCount (n : Nat) : Nat := (n + 15) / 16

/-- The loop of R116 over `n` chunks of 16 bytes, the last perhaps short. -/
def gctrLoop (ciph : Block → Block) : Nat → Block → List Byte → List Byte
  | 0, _, _ => []
  | n + 1, cb, x => xorBytes (x.take 16) (toBytes (ciph cb)) ++ gctrLoop ciph n (inc32 cb) (x.drop 16)

/-- `GCM.GCTR` (R116). -/
def gctr (ciph : Block → Block) (icb : Block) (x : List Byte) : List Byte :=
  gctrLoop ciph (blockCount x.length) icb x

/-- The pre-counter block `J0` of a nonce (R118). -/
def preCounter (nonce : Nonce) : Block := ofBytes (nonce.toList ++ [0, 0, 0, 1])

/-- `GCM.TAG` (R119). -/
def gcmTagOf (ciph : Block → Block) (j0 hash : Block) : Block := ciph j0 ^^^ hash

/-- `GCM.TAGEQ` (R121): all 16 byte pairs are combined before the result is looked at. -/
def tagEq (t tagc : Block) : Bool :=
  (List.range 16).foldl (fun d i => d ||| (byteOf t i ^^^ byteOf tagc i)) (0x00 : Byte) == 0x00

/-- `GCM_AE` (R122): `C || T`. -/
def gcmAe (ciph : Block → Block) (nonce : Nonce) (p : List Byte) : List Byte :=
  let c := gctr ciph (inc32 (preCounter nonce)) p
  c ++ toBytes (gcmTagOf ciph (preCounter nonce) (ghash (ciph 0) c))

/-- `GCM_AD` (R123): none for `AuthFail`; the tag is checked before any plaintext is produced. -/
def gcmAd (ciph : Block → Block) (nonce : Nonce) (ct : List Byte) : Option (List Byte) :=
  let c := ct.take (ct.length - 16)
  let t := ofBytes (ct.drop (ct.length - 16))
  if tagEq t (gcmTagOf ciph (preCounter nonce) (ghash (ciph 0) c)) then
    some (gctr ciph (inc32 (preCounter nonce)) c)
  else none

end Sys2Proof.Machine
end

