-- ==== Sys2Proof/Machine/Scratch.lean ====
section
/-! DEFINITION. The internal operations of `AESC`, `GCME` and `NGEN` on the scratch registers (R33, R82, R101 to R123,
R132): each writes the registers its rule says it writes. -/

namespace Sys2Proof.Machine

/-- `CIPH` under the round keys of the running command (R102). -/
def State.ciph (s : State) (b : Block) : Block := cipher s.nr.toNat s.roundKey b

/-- Round key `r` that `AES.KEYEXP` computes (R101); for a `KEYLEN` other than 16 and 32, which never reaches `AESC`
(R99), no value is stated (log 8). -/
def State.expandedKey (s : State) (r : Nat) : Block :=
  if s.keylen = 16 ∨ s.keylen = 32 then roundKeyOf s.keyBytes r else Config.unstatedRoundKey s.keyBytes r

/-- `AES.KEYEXP` (R101): `NR` and `RK[0..NR]`; later round keys stay. -/
def opKeyexp (s : State) : State :=
  let nr : BitVec 4 := if s.keylen = 16 then 10 else 14
  let new (r : Nat) : Block := if r ≤ nr.toNat then s.expandedKey r else s.roundKey r
  { s with
    nr := nr
    rk := #v[new 0, new 1, new 2, new 3, new 4, new 5, new 6, new 7, new 8, new 9, new 10, new 11, new 12, new 13,
             new 14] }

/-- `AES.CIPHER` (R102): the output block is left in `S`. -/
def opCipher (input : Block) (s : State) : State := { s with sreg := s.ciph input }

/-- `GCM.INIT` (R117, R118): `H` and `J0`. -/
def opInit (nonce : Nonce) (s : State) : State :=
  { opCipher 0 s with hreg := s.ciph 0, j0 := preCounter nonce }

/-- The output of `GCM.GCTR` (R116). -/
def State.gctrOut (s : State) (icb : Block) (x : List Byte) : List Byte := gctr s.ciph icb x

/-- The registers `GCM.GCTR` leaves (R116): `CB` past the last block, `S` the last key-stream block. -/
def opGctr (icb : Block) (x : List Byte) (s : State) : State :=
  { s with
    cb := incBy (blockCount x.length) icb
    sreg := if blockCount x.length = 0 then s.sreg else s.ciph (incBy (blockCount x.length - 1) icb) }

/-- `GCM.GHASH` (R115): the accumulator `Y` ends as the hash. -/
def opGhash (c : List Byte) (s : State) : State := { s with yreg := ghash s.hreg c }

/-- `GCM.TAG` (R119): `EKJ0` and `TAGC`. -/
def opTag (hash : Block) (s : State) : State :=
  { opCipher s.j0 s with ekj0 := s.ciph s.j0, tagc := s.ciph s.j0 ^^^ hash }

/-- The RBP receives `NGEN`'s request, as the next of all it has received (R131, R132, R244). -/
def issueRequest (s : State) : State :=
  { s with rbpReq := .waiting s.rbpRequests, rbpRequests := s.rbpRequests + 1 }

/-- `GCM_AE` (R122) run on the registers: the output `C || T` and the state. -/
def opGcmAe (nonce : Nonce) (p : List Byte) (s : State) : List Byte × State :=
  let s1 := opInit nonce s
  let c := s1.gctrOut (inc32 s1.j0) p
  let s2 := opGhash c (opGctr (inc32 s1.j0) p s1)
  let s3 := opTag s2.yreg s2
  (c ++ toBytes s3.tagc, s3)

/-- `GCM_AD` (R123) run on the registers: none for `AuthFail`, and the state. -/
def opGcmAd (nonce : Nonce) (ct : List Byte) (s : State) : Option (List Byte) × State :=
  let c := ct.take (ct.length - 16)
  let t := ofBytes (ct.drop (ct.length - 16))
  let s1 := opGhash c (opInit nonce s)
  let s2 := opTag s1.yreg s1
  if tagEq t s2.tagc then (some (s2.gctrOut (inc32 s2.j0) c), opGctr (inc32 s2.j0) c s2) else (none, s2)

end Sys2Proof.Machine
end

