-- ==== Sys2Proof/Machine/Internal.lean ====
section
/-! DEFINITION. The internal operations run by themselves (R82: `SEQ` issues them inside `Complete`, never the host; log 7): the
registers each writes, and what it returns in `result`. -/

namespace Sys2Proof.Machine

/-- `AES.KEYEXP` (R101); it returns nothing. -/
def execAesKeyexp (s : State) : Host.Outcome State Fault Refusal := .next { opKeyexp s with result := .none }

/-- `AES.CIPHER` (R102); it returns the output block. -/
def execAesCipher (input : Block) (s : State) : Host.Outcome State Fault Refusal := .next { opCipher input s with result := .block (s.ciph input) }

/-- `GCM.GFMUL` (R111); it writes no register and returns the product. -/
def execGcmGfmul (x y : Block) (s : State) : Host.Outcome State Fault Refusal := .next { s with result := .block (gfmul x y) }

/-- `GCM.INC32` (R112); it returns the incremented block. -/
def execGcmInc32 (b : Block) (s : State) : Host.Outcome State Fault Refusal := .next { s with result := .block (inc32 b) }

/-- `GCM.GHASH` (R115); it returns the hash. -/
def execGcmGhash (c : List Byte) (s : State) : Host.Outcome State Fault Refusal := .next { opGhash c s with result := .block (ghash s.hreg c) }

/-- `GCM.GCTR` (R116); it returns the output bytes. -/
def execGcmGctr (icb : Block) (x : List Byte) (s : State) : Host.Outcome State Fault Refusal := .next { opGctr icb x s with result := .bytes (s.gctrOut icb x) }

/-- `GCM.INIT` (R117, R118); it returns nothing. -/
def execGcmInit (nonce : Nonce) (s : State) : Host.Outcome State Fault Refusal := .next { opInit nonce s with result := .none }

/-- `GCM.TAG` (R119); it returns the tag. -/
def execGcmTag (hash : Block) (s : State) : Host.Outcome State Fault Refusal := .next { opTag hash s with result := .block (s.ciph s.j0 ^^^ hash) }

/-- `GCM.TAGEQ` (R121); it returns whether the received tag equals `TAGC`. -/
def execGcmTageq (t : Block) (s : State) : Host.Outcome State Fault Refusal := .next { s with result := .bit (tagEq t s.tagc) }

/-- `NGEN.DRAW` (R132): one request, one answer; waits while the RBP has not answered (R135); on `Fail` it raises
`RandomnessFailure`. -/
def execNgenDraw (s : State) : Host.Outcome State Fault Refusal := 
  match s.rbpReq with
  | .idle => .next (issueRequest s)
  | .waiting _ => .next s
  | .answered (.ok n) => .next { s with rbpReq := .idle, result := .nonce n }
  | .answered .fail => .next (raiseError .randomnessFailure s)

end Sys2Proof.Machine
end

