-- ==== Sys2Proof/Machine/NonceBytes.lean ====
section
/-! DEFINITION. The twelve nonce bytes of R53: their reads (R29, R56) and their writes, which are ignored (R57, R168). -/

namespace Sys2Proof.Machine

/-- `RD8 NONCE+0` (R29, R56). -/
def execRd8Nonce0 (s : State) : Host.Outcome State Fault Refusal := .next (memRead (.nonce 0) s)

/-- `WR8 NONCE+0, data`: read-only, the value is dropped (R57, R168). -/
def execWr8Nonce0 (_data : Byte) (s : State) : Host.Outcome State Fault Refusal := .next (ignoreWrite s)

/-- `RD8 NONCE+1` (R29, R56). -/
def execRd8Nonce1 (s : State) : Host.Outcome State Fault Refusal := .next (memRead (.nonce 1) s)

/-- `WR8 NONCE+1, data`: read-only, the value is dropped (R57, R168). -/
def execWr8Nonce1 (_data : Byte) (s : State) : Host.Outcome State Fault Refusal := .next (ignoreWrite s)

/-- `RD8 NONCE+2` (R29, R56). -/
def execRd8Nonce2 (s : State) : Host.Outcome State Fault Refusal := .next (memRead (.nonce 2) s)

/-- `WR8 NONCE+2, data`: read-only, the value is dropped (R57, R168). -/
def execWr8Nonce2 (_data : Byte) (s : State) : Host.Outcome State Fault Refusal := .next (ignoreWrite s)

/-- `RD8 NONCE+3` (R29, R56). -/
def execRd8Nonce3 (s : State) : Host.Outcome State Fault Refusal := .next (memRead (.nonce 3) s)

/-- `WR8 NONCE+3, data`: read-only, the value is dropped (R57, R168). -/
def execWr8Nonce3 (_data : Byte) (s : State) : Host.Outcome State Fault Refusal := .next (ignoreWrite s)

/-- `RD8 NONCE+4` (R29, R56). -/
def execRd8Nonce4 (s : State) : Host.Outcome State Fault Refusal := .next (memRead (.nonce 4) s)

/-- `WR8 NONCE+4, data`: read-only, the value is dropped (R57, R168). -/
def execWr8Nonce4 (_data : Byte) (s : State) : Host.Outcome State Fault Refusal := .next (ignoreWrite s)

/-- `RD8 NONCE+5` (R29, R56). -/
def execRd8Nonce5 (s : State) : Host.Outcome State Fault Refusal := .next (memRead (.nonce 5) s)

/-- `WR8 NONCE+5, data`: read-only, the value is dropped (R57, R168). -/
def execWr8Nonce5 (_data : Byte) (s : State) : Host.Outcome State Fault Refusal := .next (ignoreWrite s)

/-- `RD8 NONCE+6` (R29, R56). -/
def execRd8Nonce6 (s : State) : Host.Outcome State Fault Refusal := .next (memRead (.nonce 6) s)

/-- `WR8 NONCE+6, data`: read-only, the value is dropped (R57, R168). -/
def execWr8Nonce6 (_data : Byte) (s : State) : Host.Outcome State Fault Refusal := .next (ignoreWrite s)

/-- `RD8 NONCE+7` (R29, R56). -/
def execRd8Nonce7 (s : State) : Host.Outcome State Fault Refusal := .next (memRead (.nonce 7) s)

/-- `WR8 NONCE+7, data`: read-only, the value is dropped (R57, R168). -/
def execWr8Nonce7 (_data : Byte) (s : State) : Host.Outcome State Fault Refusal := .next (ignoreWrite s)

/-- `RD8 NONCE+8` (R29, R56). -/
def execRd8Nonce8 (s : State) : Host.Outcome State Fault Refusal := .next (memRead (.nonce 8) s)

/-- `WR8 NONCE+8, data`: read-only, the value is dropped (R57, R168). -/
def execWr8Nonce8 (_data : Byte) (s : State) : Host.Outcome State Fault Refusal := .next (ignoreWrite s)

/-- `RD8 NONCE+9` (R29, R56). -/
def execRd8Nonce9 (s : State) : Host.Outcome State Fault Refusal := .next (memRead (.nonce 9) s)

/-- `WR8 NONCE+9, data`: read-only, the value is dropped (R57, R168). -/
def execWr8Nonce9 (_data : Byte) (s : State) : Host.Outcome State Fault Refusal := .next (ignoreWrite s)

/-- `RD8 NONCE+10` (R29, R56). -/
def execRd8Nonce10 (s : State) : Host.Outcome State Fault Refusal := .next (memRead (.nonce 10) s)

/-- `WR8 NONCE+10, data`: read-only, the value is dropped (R57, R168). -/
def execWr8Nonce10 (_data : Byte) (s : State) : Host.Outcome State Fault Refusal := .next (ignoreWrite s)

/-- `RD8 NONCE+11` (R29, R56). -/
def execRd8Nonce11 (s : State) : Host.Outcome State Fault Refusal := .next (memRead (.nonce 11) s)

/-- `WR8 NONCE+11, data`: read-only, the value is dropped (R57, R168). -/
def execWr8Nonce11 (_data : Byte) (s : State) : Host.Outcome State Fault Refusal := .next (ignoreWrite s)

end Sys2Proof.Machine
end

