-- ==== Sys2Proof/Machine/Ports.lean ====
section
/-! DEFINITION. The ports of R53: the push ports `KEYIN`, `NONCEIN`, `DIN` (R163 to R165) and the pop port `DOUT` (R166). -/

namespace Sys2Proof.Machine

/-- `RD8 KEYIN`: write-only, reads 0 (R56). -/
def execRd8Keyin (s : State) : Host.Outcome State Fault Refusal := .next (memRead .keyin s)

/-- `WR8 KEYIN, data`: push (R163). -/
def execWr8Keyin (data : Byte) (s : State) : Host.Outcome State Fault Refusal := .next (pushKey data s)

/-- `RD8 NONCEIN`: write-only, reads 0 (R56). -/
def execRd8Noncein (s : State) : Host.Outcome State Fault Refusal := .next (memRead .noncein s)

/-- `WR8 NONCEIN, data`: push (R164). -/
def execWr8Noncein (data : Byte) (s : State) : Host.Outcome State Fault Refusal := .next (pushNonce data s)

/-- `RD8 DIN`: write-only, reads 0 (R56). -/
def execRd8Din (s : State) : Host.Outcome State Fault Refusal := .next (memRead .din s)

/-- `WR8 DIN, data`: push (R165). -/
def execWr8Din (data : Byte) (s : State) : Host.Outcome State Fault Refusal := .next (pushData data s)

/-- `RD8 DOUT`: pop (R166). -/
def execRd8Dout (s : State) : Host.Outcome State Fault Refusal := .next (popData s)

/-- `WR8 DOUT, data`: read-only, the value is dropped (R57, R168). -/
def execWr8Dout (_data : Byte) (s : State) : Host.Outcome State Fault Refusal := .next (ignoreWrite s)

end Sys2Proof.Machine
end

