-- ==== Sys2Proof/Machine/Registers.lean ====
section
/-! DEFINITION. The 32-bit registers of R53 other than `CMD`: their reads (R56) and writes (R57). -/

namespace Sys2Proof.Machine

/-- `RD32 CTRL` (R21, R56). -/
def execRd32Ctrl (s : State) : Host.Outcome State Fault Refusal := .next (memRead .ctrl s)

/-- `WR32 CTRL, data`: accepted in every phase (R161). -/
def execWr32Ctrl (data : Word) (s : State) : Host.Outcome State Fault Refusal := .next (writeCtrl data s)

/-- `RD32 STATUS` (R23, R56). -/
def execRd32Status (s : State) : Host.Outcome State Fault Refusal := .next (memRead .status s)

/-- `WR32 STATUS, data`: read-only, the value is dropped (R57, R168). -/
def execWr32Status (_data : Word) (s : State) : Host.Outcome State Fault Refusal := .next (ignoreWrite s)

/-- `RD32 KEYLEN` (R26, R56). -/
def execRd32Keylen (s : State) : Host.Outcome State Fault Refusal := .next (memRead .keylen s)

/-- `WR32 KEYLEN, data`: read-only, the value is dropped (R57, R168). -/
def execWr32Keylen (_data : Word) (s : State) : Host.Outcome State Fault Refusal := .next (ignoreWrite s)

/-- `RD32 NONCELEN` (R29, R56). -/
def execRd32Noncelen (s : State) : Host.Outcome State Fault Refusal := .next (memRead .noncelen s)

/-- `WR32 NONCELEN, data`: read-only, the value is dropped (R57, R168). -/
def execWr32Noncelen (_data : Word) (s : State) : Host.Outcome State Fault Refusal := .next (ignoreWrite s)

/-- `RD32 ILEN` (R27, R56). -/
def execRd32Ilen (s : State) : Host.Outcome State Fault Refusal := .next (memRead .ilen s)

/-- `WR32 ILEN, data`: read-only, the value is dropped (R57, R168). -/
def execWr32Ilen (_data : Word) (s : State) : Host.Outcome State Fault Refusal := .next (ignoreWrite s)

/-- `RD32 OLEN` (R28, R56). -/
def execRd32Olen (s : State) : Host.Outcome State Fault Refusal := .next (memRead .olen s)

/-- `WR32 OLEN, data`: read-only, the value is dropped (R57, R168). -/
def execWr32Olen (_data : Word) (s : State) : Host.Outcome State Fault Refusal := .next (ignoreWrite s)

end Sys2Proof.Machine
end

