-- ==== Sys2Proof/Machine/Dispatch.lean ====
section
/-! DEFINITION. One arm per instruction, each a direct call of its meaning. -/

namespace Sys2Proof.Machine

def exec (i : Instr) (s : State) : Host.Outcome State Fault Refusal :=
  match i with
  | .sealCmd => Sys2Proof.Machine.execSealCmd s
  | .openCmd => Sys2Proof.Machine.execOpenCmd s
  | .clearCmd => Sys2Proof.Machine.execClearCmd s
  | .rd32Ctrl => Sys2Proof.Machine.execRd32Ctrl s
  | .wr32Ctrl data => Sys2Proof.Machine.execWr32Ctrl data s
  | .rd32Status => Sys2Proof.Machine.execRd32Status s
  | .wr32Status data => Sys2Proof.Machine.execWr32Status data s
  | .rd32Cmd => Sys2Proof.Machine.execRd32Cmd s
  | .wr32Cmd data => Sys2Proof.Machine.execWr32Cmd data s
  | .rd32Keylen => Sys2Proof.Machine.execRd32Keylen s
  | .wr32Keylen data => Sys2Proof.Machine.execWr32Keylen data s
  | .rd32Noncelen => Sys2Proof.Machine.execRd32Noncelen s
  | .wr32Noncelen data => Sys2Proof.Machine.execWr32Noncelen data s
  | .rd32Ilen => Sys2Proof.Machine.execRd32Ilen s
  | .wr32Ilen data => Sys2Proof.Machine.execWr32Ilen data s
  | .rd32Olen => Sys2Proof.Machine.execRd32Olen s
  | .wr32Olen data => Sys2Proof.Machine.execWr32Olen data s
  | .rd8Keyin => Sys2Proof.Machine.execRd8Keyin s
  | .wr8Keyin data => Sys2Proof.Machine.execWr8Keyin data s
  | .rd8Noncein => Sys2Proof.Machine.execRd8Noncein s
  | .wr8Noncein data => Sys2Proof.Machine.execWr8Noncein data s
  | .rd8Din => Sys2Proof.Machine.execRd8Din s
  | .wr8Din data => Sys2Proof.Machine.execWr8Din data s
  | .rd8Dout => Sys2Proof.Machine.execRd8Dout s
  | .wr8Dout data => Sys2Proof.Machine.execWr8Dout data s
  | .rd8Nonce0 => Sys2Proof.Machine.execRd8Nonce0 s
  | .wr8Nonce0 data => Sys2Proof.Machine.execWr8Nonce0 data s
  | .rd8Nonce1 => Sys2Proof.Machine.execRd8Nonce1 s
  | .wr8Nonce1 data => Sys2Proof.Machine.execWr8Nonce1 data s
  | .rd8Nonce2 => Sys2Proof.Machine.execRd8Nonce2 s
  | .wr8Nonce2 data => Sys2Proof.Machine.execWr8Nonce2 data s
  | .rd8Nonce3 => Sys2Proof.Machine.execRd8Nonce3 s
  | .wr8Nonce3 data => Sys2Proof.Machine.execWr8Nonce3 data s
  | .rd8Nonce4 => Sys2Proof.Machine.execRd8Nonce4 s
  | .wr8Nonce4 data => Sys2Proof.Machine.execWr8Nonce4 data s
  | .rd8Nonce5 => Sys2Proof.Machine.execRd8Nonce5 s
  | .wr8Nonce5 data => Sys2Proof.Machine.execWr8Nonce5 data s
  | .rd8Nonce6 => Sys2Proof.Machine.execRd8Nonce6 s
  | .wr8Nonce6 data => Sys2Proof.Machine.execWr8Nonce6 data s
  | .rd8Nonce7 => Sys2Proof.Machine.execRd8Nonce7 s
  | .wr8Nonce7 data => Sys2Proof.Machine.execWr8Nonce7 data s
  | .rd8Nonce8 => Sys2Proof.Machine.execRd8Nonce8 s
  | .wr8Nonce8 data => Sys2Proof.Machine.execWr8Nonce8 data s
  | .rd8Nonce9 => Sys2Proof.Machine.execRd8Nonce9 s
  | .wr8Nonce9 data => Sys2Proof.Machine.execWr8Nonce9 data s
  | .rd8Nonce10 => Sys2Proof.Machine.execRd8Nonce10 s
  | .wr8Nonce10 data => Sys2Proof.Machine.execWr8Nonce10 data s
  | .rd8Nonce11 => Sys2Proof.Machine.execRd8Nonce11 s
  | .wr8Nonce11 data => Sys2Proof.Machine.execWr8Nonce11 data s
  | .aesKeyexp => Sys2Proof.Machine.execAesKeyexp s
  | .aesCipher input => Sys2Proof.Machine.execAesCipher input s
  | .gcmGfmul x y => Sys2Proof.Machine.execGcmGfmul x y s
  | .gcmInc32 b => Sys2Proof.Machine.execGcmInc32 b s
  | .gcmGhash c => Sys2Proof.Machine.execGcmGhash c s
  | .gcmGctr icb x => Sys2Proof.Machine.execGcmGctr icb x s
  | .gcmInit nonce => Sys2Proof.Machine.execGcmInit nonce s
  | .gcmTag hash => Sys2Proof.Machine.execGcmTag hash s
  | .gcmTageq t => Sys2Proof.Machine.execGcmTageq t s
  | .ngenDraw => Sys2Proof.Machine.execNgenDraw s

end Sys2Proof.Machine
end

