-- ==== Sys2Proof/Machine/Ngen.lean ====
section
/-! DEFINITION. The random-byte providers (42_nonce_generator.md R131, R133, R136). -/

namespace Sys2Proof.Machine

/-- The answer to request `k` (from 0): a production provider gives the draw it makes (R133); `DetList` gives the
`k`-th entry, `Fail` beyond the end; `DetCounter` gives the seed plus `k` as a 96-bit integer (R136). -/
def providerAnswer (p : Provider) (k : Nat) (draw : Answer) : Answer :=
  match p with
  | .production => draw
  | .detList l => l.getD k .fail
  | .detCounter seed => .ok (nonceOfNat ((intBe seed.toList + k) % 2 ^ 96))

end Sys2Proof.Machine
end

