-- ==== Sys2Proof/Machine/Engine.lean ====
section
/-! DEFINITION. The turns of the Engine and of the RBP: the `Complete` step of `SEAL` (R141) and of `OPEN` (R151), the
request of a draw and the answer to it (R131). -/

namespace Sys2Proof.Machine

/-- `KEYLEN` is neither 16 nor 32 (R142, R152). -/
def State.badKeyLength (s : State) : Bool := decide (s.keylen ≠ 16) && decide (s.keylen ≠ 32)

/-- The first error that `SEAL`'s checks before the draw raise (R141, R208). -/
def sealCheck (s : State) : Option ErrCode :=
  if s.badKeyLength then some .invalidKeyLength
  else if s.params.bufBytes - 16 < s.ilen.toNat then some .lengthLimit
  else none

/-- The first error that `OPEN`'s checks raise (R151, R208). -/
def openCheck (s : State) : Option ErrCode :=
  if s.badKeyLength then some .invalidKeyLength
  else if s.noncelen ≠ 12 then some .invalidNonceLength
  else if s.params.bufBytes < s.ilen.toNat then some .lengthLimit
  else if s.ilen.toNat < 16 then some .authenticationFailure
  else none

/-- `SEAL` from the drawn nonce on (R141): key expansion, `GCM_AE`, success commit. -/
def sealWith (n : Nonce) (s : State) : State :=
  let r := opGcmAe n s.message (opKeyexp s)
  commitSeal n r.1 r.2

/-- `Complete` of a `SEAL` (R141). When its checks pass it is enabled only once the RBP's answer exists (R135): until
then the Engine has no step. -/
def completeSeal (s : State) : State :=
  match sealCheck s with
  | some e => raiseError e s
  | none =>
    match s.rbpReq with
    | .idle | .waiting _ => s
    | .answered .fail => raiseError .randomnessFailure s
    | .answered (.ok n) => sealWith n s

/-- `Complete` of an `OPEN` (R151). -/
def completeOpen (s : State) : State :=
  match openCheck s with
  | some e => raiseError e s
  | none =>
    let r := opGcmAd s.nonce s.message (opKeyexp s)
    match r.1 with
    | none => raiseError .authenticationFailure r.2
    | some p => commitResult p r.2

/-- A turn of the Engine: its one step is `Complete`, which it has only while `PHASE` = `BUSY` (R10). -/
def engineTurn (s : State) : State :=
  if s.phase = .busy then
    match s.runcmd with
    | .sealing => completeSeal s
    | .opening => completeOpen s
    | .none => s
  else s

/-- The request to the RBP is pending: a `SEAL` is in `BUSY` and its checks before the draw pass (R36). -/
def State.drawPending (s : State) : Bool :=
  decide (s.phase = .busy) && decide (s.runcmd = .sealing) && (sealCheck s).isNone

/-- The RBP receives the pending request, once per `SEAL` (R131, R132, log 3). -/
def requestTurn (s : State) : State := if s.drawPending && decide (s.rbpReq = .idle) then issueRequest s else s

/-- The RBP answers the request, which it has received before or receives now (R131); an answer that no draw waits for is
discarded (R239). -/
def rbpTurn (draw : Answer) (s : State) : State :=
  let r := requestTurn s
  match r.rbpReq with
  | .waiting k => { r with rbpReq := .answered (providerAnswer s.params.rbp k draw) }
  | .idle | .answered _ => r

/-- The RBP receives a request of another instance, whose answer goes there (R138). -/
def otherRequestTurn (s : State) : State := { s with rbpRequests := s.rbpRequests + 1 }

/-- One turn (R10). -/
def takeTurn (s : State) (t : Turn) : State :=
  match t with
  | .engine => engineTurn s
  | .request => requestTurn s
  | .rbp draw => rbpTurn draw s
  | .otherRequest => otherRequestTurn s

end Sys2Proof.Machine
end

