-- ==== Sys2Proof/Machine/Sequence.lean ====
section
/-! DEFINITION. The sequence of events (R62, R244): what the next element does. -/

namespace Sys2Proof.Machine

/-- A decoded transaction: the instruction's meaning; `BUSERR` for an illegal one (R58); a reserved command word is a
write of `CMD` that is ignored (R74, R162); malformed trace text is refused (R71). -/
def runDecoded (d : Except DecodeError Instr) (s : State) : Host.Outcome State Fault Refusal :=
  match d with
  | .ok i => exec i s
  | .error .illegalAccess => .next (busError s)
  | .error .reservedCommand => .next (ignoreWrite s)
  | .error _ => .refused .malformedWord

/-- A transaction at a bus address (R52): one outside the block does not reach the CORE. -/
def runBusAccess (write : Bool) (size : AccessSize) (addr : Nat) (data : Word) (s : State) :
    Host.Outcome State Fault Refusal :=
  match busOffset s.params addr with
  | none => .next s
  | some off => runDecoded (decodeTransaction ⟨write, size, off, data⟩) s

/-- One event on the state it leaves behind. A reset works in every state (R230); anything else has no behaviour in a
state that is never held (U8, log 10). -/
def runEvent (e : Event) (s : State) : Host.Outcome State Fault Refusal :=
  match e with
  | .reset => .next (resetCore s)
  | .word w => if s.held then runDecoded (decode w) s else .refused .unreachableState
  | .busAccess wr size addr data => if s.held then runBusAccess wr size addr data s else .refused .unreachableState
  | .turn t => if s.held then .next (takeTurn s t) else .refused .unreachableState

/-- The next element of the sequence is taken off and run; with none to come the CORE stays as it is (log 2). -/
def runNext (s : State) : Host.Outcome State Fault Refusal :=
  match s.events with
  | [] => .next s
  | e :: rest => runEvent e { s with events := rest }

/-- The event that performs an opcode-table word of `nbits` bits: the host's transaction (Format T) or the command word
that a `WR32 CMD` carries (Format C); a word whose bytes are no trace word leaves no event. -/
def tableEvents (nbits w : Nat) : List Event :=
  match traceWordOfBytes (tableBytes nbits w) with
  | .ok t => [.word t]
  | .error _ => []

end Sys2Proof.Machine
end

