-- ==== Sys2Proof/Machine/Step.lean ====
section
/-! DEFINITION. One step of the CORE, and placing an instruction where the next step takes it. -/

namespace Sys2Proof.Machine

/-- One step: the next element of the sequence of R62. -/
def step (s : State) : Host.Outcome State Fault Refusal := runNext s

/-- `s` with the instruction of an opcode-table word as the next element of the sequence. -/
def State.withFetchWord (s : State) (nbits w : Nat) : State := { s with events := tableEvents nbits w ++ s.events }

end Sys2Proof.Machine
end

