-- ==== Sys2Proof/Machine/Wrapper.lean ====
section
/-! DEFINITION. The host wrapper (46_host_wrapper.md R180 to R193): software around the CORE. The hex codec, the
pseudo-instructions of R80, the two driver procedures, and the functions they are specified to compute. -/

namespace Sys2Proof.Machine

/-- The hex digits, lower case (R181). -/
def hexDigits : List Char := ['0', '1', '2', '3', '4', '5', '6', '7', '8', '9', 'a', 'b', 'c', 'd', 'e', 'f']

/-- The digit of a value 0 to 15 (R181). -/
def hexDigit (n : Nat) : Char := hexDigits.getD n '0'

/-- `HexEncode` (R181); a character string is the list of its characters. -/
def hexEncode (b : List Byte) : List Char := b.flatMap fun x => [hexDigit (x.toNat / 16), hexDigit (x.toNat % 16)]

/-- `val` of R182; none for a character that is no hex digit. Upper case is accepted (D21). -/
def hexVal (c : Char) : Option Nat :=
  if 0x30 ≤ c.toNat ∧ c.toNat ≤ 0x39 then some (c.toNat - 0x30)
  else if 0x61 ≤ c.toNat ∧ c.toNat ≤ 0x66 then some (c.toNat - 0x61 + 10)
  else if 0x41 ≤ c.toNat ∧ c.toNat ≤ 0x46 then some (c.toNat - 0x41 + 10)
  else none

/-- `HexDecode` (R182). -/
def hexDecode : List Char → Except ErrCode (List Byte)
  | [] => .ok []
  | [_] => .error .decodeError
  | a :: b :: rest =>
    match hexVal a, hexVal b, hexDecode rest with
    | some x, some y, .ok l => .ok (BitVec.ofNat 8 (16 * x + y) :: l)
    | _, _, _ => .error .decodeError

/-- One host transaction of a host program; every one the drivers make is legal and has a next state (R183). -/
def transact (i : Instr) (s : State) : State :=
  match exec i s with
  | .next t => t
  | _ => s

/-- A host script without reads (R79). -/
def runScript (l : List Instr) (s : State) : State := l.foldl (fun t i => transact i t) s

/-- The pseudo-instruction `SEAL` (R80). -/
def sealScript : List Instr := [.wr32Cmd 0x00000001]

/-- The pseudo-instruction `OPEN` (R80). -/
def openScript : List Instr := [.wr32Cmd 0x00000002]

/-- The pseudo-instruction `CLEAR` (R80). -/
def clearScript : List Instr := [.wr32Cmd 0x00000003]

/-- The pseudo-instruction `PUSHKEY` (R80). -/
def pushKeyScript (b : List Byte) : List Instr := b.map .wr8Keyin

/-- The pseudo-instruction `PUSHNONCE` (R80). -/
def pushNonceScript (b : List Byte) : List Instr := b.map .wr8Noncein

/-- The pseudo-instruction `PUSHDATA` (R80). -/
def pushDataScript (b : List Byte) : List Instr := b.map .wr8Din

/-- The pseudo-instruction `RDNONCE` (R80). -/
def rdNonceScript : List Instr :=
  [.rd8Nonce0, .rd8Nonce1, .rd8Nonce2, .rd8Nonce3, .rd8Nonce4, .rd8Nonce5, .rd8Nonce6, .rd8Nonce7, .rd8Nonce8,
   .rd8Nonce9, .rd8Nonce10, .rd8Nonce11]

/-- The pseudo-instruction `POPDATA k` (R80). -/
def popDataScript (k : Nat) : List Instr := List.replicate k .rd8Dout

/-- The pseudo-instruction `IRQON` (R80). -/
def irqOnScript : List Instr := [.wr32Ctrl 1]

/-- The pseudo-instruction `IRQOFF` (R80). -/
def irqOffScript : List Instr := [.wr32Ctrl 0]

/-- The 4-byte value the latest read returned. -/
def State.read32 (s : State) : Word :=
  match s.bus with
  | .ok32 v => v
  | _ => 0

/-- The byte the latest read returned. -/
def State.read8 (s : State) : Byte :=
  match s.bus with
  | .ok8 v => v
  | _ => 0

/-- A host script of byte reads: the bytes returned, in order (R79). -/
def readBytes : List Instr → State → List Byte × State
  | [], s => ([], s)
  | i :: rest, s => ((transact i s).read8 :: (readBytes rest (transact i s)).1, (readBytes rest (transact i s)).2)

/-- Turns that fall between two transactions of the driver (R62, R240 (b)), in order. -/
def takeTurns (l : List Turn) (s : State) : State := l.foldl takeTurn s

/-- `WAITDONE` (R80): read `STATUS` until `PHASE` = `DONE`, as often as it takes. The schedule lists, for each read, the
turns that fall before it, any number of any agent (R240 (b)); none while the loop has not ended when the schedule does,
as in an execution that is not fair (log 16). -/
def waitDone : List (List Turn) → State → Option (Word × State)
  | [], _ => none
  | turns :: rest, s =>
    if (transact .rd32Status (takeTurns turns s)).read32.extractLsb' 0 2 = 2 then
      some ((transact .rd32Status (takeTurns turns s)).read32, transact .rd32Status (takeTurns turns s))
    else waitDone rest (transact .rd32Status (takeTurns turns s))

/-- Waiting for the `irq` output instead (R184): turns fall until it is 1; none if it is not 1 after the last. -/
def waitIrq : List Turn → State → Option State
  | [], s => if s.irq then some s else none
  | t :: rest, s => if s.irq then some s else waitIrq rest (takeTurn s t)

/-- Waiting for the `irq` output and then reading `STATUS` once (R184). -/
def waitIrqStatus (turns : List Turn) (s : State) : Option (Word × State) :=
  (waitIrq turns s).map fun t => ((transact .rd32Status t).read32, transact .rd32Status t)

/-- The reads after a successful `SEAL` (R184): length, nonce, output; then `CLEAR`. -/
def takeSealed (s : State) : (List Byte × List Byte) × State :=
  let s1 := transact .rd32Olen s
  let r := readBytes rdNonceScript s1
  let d := readBytes (popDataScript s1.read32.toNat) r.2
  ((r.1, d.1), runScript clearScript d.2)

/-- `DrvSeal` up to the write of `SEAL` (R184). -/
def sealInputScript (key p : List Byte) : List Instr :=
  clearScript ++ pushKeyScript key ++ pushDataScript p ++ sealScript

/-- `DrvSeal` from the last value of `STATUS` on (R184); a code without a name never comes back (R188). -/
def finishSeal (w : Word × State) : Except ErrCode (List Byte × List Byte) × State :=
  match errOfCode (w.1.extractLsb' 4 4) with
  | some .none => (.ok (takeSealed w.2).1, (takeSealed w.2).2)
  | some e => (.error e, runScript clearScript w.2)
  | none => (.error .none, runScript clearScript w.2)

/-- `DrvSeal(key, P)` (R184) under a schedule of its wait loop; none while it still waits. -/
def drvSeal (key p : List Byte) (sched : List (List Turn)) (s : State) :
    Option (Except ErrCode (List Byte × List Byte) × State) :=
  (waitDone sched (runScript (sealInputScript key p) s)).map finishSeal

/-- `DrvSeal` in its other form (R184): `IRQON` first, and the `irq` output in place of `WAITDONE`. That `IRQON` is the
driver's own first transaction, and that `IE` stays 1, is the model's choice (DESIGN CHOICE, log 23). -/
def drvSealIrq (key p : List Byte) (turns : List Turn) (s : State) :
    Option (Except ErrCode (List Byte × List Byte) × State) :=
  (waitIrqStatus turns (runScript (irqOnScript ++ sealInputScript key p) s)).map finishSeal

/-- The reads after a successful `OPEN` (R185): length, output; then `CLEAR`. -/
def takeOpened (s : State) : List Byte × State :=
  let s1 := transact .rd32Olen s
  let d := readBytes (popDataScript s1.read32.toNat) s1
  (d.1, runScript clearScript d.2)

/-- `DrvOpen` up to the write of `OPEN` (R185). -/
def openInputScript (key ct n : List Byte) : List Instr :=
  clearScript ++ pushKeyScript key ++ pushNonceScript n ++ pushDataScript ct ++ openScript

/-- `DrvOpen` from the last value of `STATUS` on (R185); a code without a name never comes back (R188). -/
def finishOpen (w : Word × State) : Except ErrCode (List Byte) × State :=
  match errOfCode (w.1.extractLsb' 4 4) with
  | some .none => (.ok (takeOpened w.2).1, (takeOpened w.2).2)
  | some e => (.error e, runScript clearScript w.2)
  | none => (.error .none, runScript clearScript w.2)

/-- `DrvOpen(key, CT, N)` (R185) under a schedule of its wait loop; none while it still waits. -/
def drvOpen (key ct n : List Byte) (sched : List (List Turn)) (s : State) :
    Option (Except ErrCode (List Byte) × State) :=
  (waitDone sched (runScript (openInputScript key ct n) s)).map finishOpen

/-- `DrvOpen` with `IRQON` first and the `irq` output in place of `WAITDONE` (R184, R185). That `IRQON` is the driver's own
first transaction, and that `IE` stays 1, is the model's choice (DESIGN CHOICE, log 23). -/
def drvOpenIrq (key ct n : List Byte) (turns : List Turn) (s : State) :
    Option (Except ErrCode (List Byte) × State) :=
  (waitIrqStatus turns (runScript (irqOnScript ++ openInputScript key ct n) s)).map finishOpen

/-- The source's `Seal` (R186). -/
def sealFn (key p : List Byte) (sched : List (List Turn)) (s : State) :
    Option (Except ErrCode (List Byte × List Byte) × State) := drvSeal key p sched s

/-- The source's `Open` (R187): hex decoding comes before the hardware is touched. -/
def openFn (key : List Byte) (ctHex nonceHex : List Char) (sched : List (List Turn)) (s : State) :
    Option (Except ErrCode (List Byte) × State) :=
  match hexDecode ctHex, hexDecode nonceHex with
  | .ok c, .ok n => drvOpen key c n sched s
  | .error e, _ => some (.error e, s)
  | _, .error e => some (.error e, s)

/-- `SealSpec(key, P, a)` (R191). -/
def sealSpec (bufBytes : Nat) (key p : List Byte) (a : Answer) : Except ErrCode (List Byte × List Byte) :=
  if key.length ≠ 16 ∧ key.length ≠ 32 then .error .invalidKeyLength
  else if bufBytes - 16 < p.length then .error .lengthLimit
  else
    match a with
    | .fail => .error .randomnessFailure
    | .ok n => .ok (n.toList, gcmAe (cipherUnder key) n p)

/-- A byte string of 12 bytes as a nonce; its first 12 bytes when it is longer, zeros after it when it is shorter. -/
def nonceOfBytes (l : List Byte) : Nonce :=
  #v[l.getD 0 0, l.getD 1 0, l.getD 2 0, l.getD 3 0, l.getD 4 0, l.getD 5 0, l.getD 6 0, l.getD 7 0, l.getD 8 0,
     l.getD 9 0, l.getD 10 0, l.getD 11 0]

/-- `OpenSpec(key, CT, N)` (R192). -/
def openSpec (bufBytes : Nat) (key ct n : List Byte) : Except ErrCode (List Byte) :=
  if key.length ≠ 16 ∧ key.length ≠ 32 then .error .invalidKeyLength
  else if n.length ≠ 12 then .error .invalidNonceLength
  else if bufBytes < ct.length then .error .lengthLimit
  else if ct.length < 16 then .error .authenticationFailure
  else
    match gcmAd (cipherUnder key) (nonceOfBytes n) ct with
    | none => .error .authenticationFailure
    | some p => .ok p

end Sys2Proof.Machine
end

