-- ==== Sys2Proof/Safety.lean ====
section
/-! DEFINITION. What the claims are stated in: the invariant of the CORE, the states a run starts in, the events that
are no malformed text, and what a host can see. -/

namespace Sys2Proof

/-- A legal host write that the table of R167 marks ignored in this phase; nothing else is ever ignored. -/
def Instr.ignored (i : Instr) (ph : Machine.Phase) : Bool :=
  match i with
  | .sealCmd | .openCmd | .wr8Keyin _ | .wr8Noncein _ | .wr8Din _ => decide (ph ≠ .idle)
  | .clearCmd => decide (ph = .busy)
  | .wr32Cmd v => if v = 1 ∨ v = 2 then decide (ph ≠ .idle) else if v = 3 then decide (ph = .busy) else true
  | .wr32Status _ | .wr32Keylen _ | .wr32Noncelen _ | .wr32Ilen _ | .wr32Olen _ | .wr8Dout _ | .wr8Nonce0 _
  | .wr8Nonce1 _ | .wr8Nonce2 _ | .wr8Nonce3 _ | .wr8Nonce4 _ | .wr8Nonce5 _ | .wr8Nonce6 _ | .wr8Nonce7 _
  | .wr8Nonce8 _ | .wr8Nonce9 _ | .wr8Nonce10 _ | .wr8Nonce11 _ => true
  | .wr32Ctrl _ | .rd32Ctrl | .rd32Status | .rd32Cmd | .rd32Keylen | .rd32Noncelen | .rd32Ilen | .rd32Olen
  | .rd8Keyin | .rd8Noncein | .rd8Din | .rd8Dout | .rd8Nonce0 | .rd8Nonce1 | .rd8Nonce2 | .rd8Nonce3 | .rd8Nonce4
  | .rd8Nonce5 | .rd8Nonce6 | .rd8Nonce7 | .rd8Nonce8 | .rd8Nonce9 | .rd8Nonce10 | .rd8Nonce11 => false
  | .aesKeyexp | .aesCipher _ | .gcmGfmul _ _ | .gcmInc32 _ | .gcmGhash _ | .gcmGctr _ _ | .gcmInit _ | .gcmTag _
  | .gcmTageq _ | .ngenDraw => false

/-- The command a legal host write of `CMD` gives: the three commands by name or as `WR32 CMD` (R73). -/
def Instr.command (i : Instr) : Option Instr :=
  match i with
  | .sealCmd => some .sealCmd
  | .openCmd => some .openCmd
  | .clearCmd => some .clearCmd
  | .wr32Cmd v => if v = 1 then some .sealCmd else if v = 2 then some .openCmd else if v = 3 then some .clearCmd else none
  | _ => none

end Sys2Proof

namespace Sys2Proof.Machine

/-- The internal scratch registers are zero (R33, R35). -/
structure State.ScratchZero (s : State) : Prop where
  rk : s.rk = Vector.replicate 15 0
  nr : s.nr = 0
  sreg : s.sreg = 0
  hreg : s.hreg = 0
  j0 : s.j0 = 0
  cb : s.cb = 0
  yreg : s.yreg = 0
  ekj0 : s.ekj0 = 0
  tagc : s.tagc = 0

/-- What holds between any two transitions after a reset: the ranges of R26, R27, R29, R30 and U8, the zero bytes past
the counts (R26, R38), `RUNCMD` and `PHASE` (R41), no result before the commit (R28), the error code only in `DONE`
(R25), zeroisation (R35), and what a failure leaves (R205). -/
structure State.Inv (s : State) : Prop where
  held : s.held = true
  keyTail : ∀ i, (h : i < 32) → s.keylen.toNat ≤ i → s.key[i] = 0
  nonceTail : ∀ i, (h : i < 12) → s.noncelen.toNat ≤ i → s.nonce[i] = 0
  ibufLength : s.ibuf.length = min s.ilen.toNat s.params.bufBytes
  obufLength : s.obuf.length = s.olen.toNat
  optrRange : s.optr ≤ s.olen.toNat
  runcmdBusy : s.runcmd ≠ .none ↔ s.phase = .busy
  requestSealing : s.rbpReq ≠ .idle → s.runcmd = .sealing ∧ sealCheck s = none
  requestCounted : ∀ k, s.rbpReq = .waiting k → k < s.rbpRequests
  errDone : s.phase ≠ .done → s.err = .none
  noResult : s.phase ≠ .done → s.olen = 0
  inputsWiped : s.phase = .done → s.key = Vector.replicate 32 0 ∧ s.keylen = 0 ∧ s.ibuf = [] ∧ s.ilen = 0
  failureWiped : s.phase = .done → s.err ≠ .none → s.olen = 0 ∧ s.nonce = Vector.replicate 12 0 ∧ s.noncelen = 0
  scratch : s.ScratchZero

/-- The state a run starts in (R244): after reset, with given parameters and a given sequence of events. -/
def State.start (p : Params) (l : List Event) : State := { State.reset with params := p, events := l }

/-- An event that is no malformed trace text (R71). -/
def Event.wellFormed (e : Event) : Bool :=
  match e with
  | .word (.htw w) => (parseHtw w).toBool
  | .word (.command _) | .busAccess _ _ _ _ | .turn _ | .reset => true

/-- Every piece of state but `CTRL` at its value after reset (R38); the model's own fields stay. -/
def State.wiped (s : State) : State :=
  { s with
    phase := .idle, proto := false, err := .none
    key := Vector.replicate 32 0, keylen := 0, nonce := Vector.replicate 12 0, noncelen := 0
    ibuf := [], ilen := 0, obuf := [], olen := 0, optr := 0
    runcmd := .none, rbpReq := .idle
    rk := Vector.replicate 15 0, nr := 0, sreg := 0, hreg := 0, j0 := 0, cb := 0, yreg := 0, ekj0 := 0, tagc := 0 }

/-- `s` with everything replaced that no host transaction may reveal (R26, R27, R33, R216): `KEY`, `IBUF` and the
internal scratch registers. -/
def State.withSecrets (s secret : State) : State :=
  { s with
    key := secret.key, ibuf := secret.ibuf
    rk := secret.rk, nr := secret.nr, sreg := secret.sreg, hreg := secret.hreg, j0 := secret.j0, cb := secret.cb,
    yreg := secret.yreg, ekj0 := secret.ekj0, tagc := secret.tagc }

/-- The host instruction an event performs, if it performs one (R52, R71, R73). -/
def Event.instr (p : Params) (e : Event) : Option Instr :=
  match e with
  | .word w => (decode w).toOption
  | .busAccess wr size addr data =>
    match busOffset p addr with
    | none => none
    | some off => (decodeTransaction ⟨wr, size, off, data⟩).toOption
  | .turn _ | .reset => none

/-- What a failure commit leaves (R205): the code, and nothing of the command. -/
def State.failed (e : ErrCode) (s : State) : State :=
  { s with
    err := e, obuf := [], olen := 0, optr := 0, nonce := Vector.replicate 12 0, noncelen := 0
    key := Vector.replicate 32 0, keylen := 0, ibuf := [], ilen := 0
    rk := Vector.replicate 15 0, nr := 0, sreg := 0, hreg := 0, j0 := 0, cb := 0, yreg := 0, ekj0 := 0, tagc := 0
    runcmd := .none, rbpReq := .idle, phase := .done }

/-- What the success commit of a `SEAL` leaves (R141, R204). -/
def State.sealed (n : Nonce) (out : List Byte) (s : State) : State :=
  { s with
    err := .none, obuf := out, olen := s.ilen + 16, optr := 0, nonce := n, noncelen := 12
    key := Vector.replicate 32 0, keylen := 0, ibuf := [], ilen := 0
    rk := Vector.replicate 15 0, nr := 0, sreg := 0, hreg := 0, j0 := 0, cb := 0, yreg := 0, ekj0 := 0, tagc := 0
    runcmd := .none, rbpReq := .idle, phase := .done }

/-- What the success commit of an `OPEN` leaves (R151, R204). -/
def State.opened (out : List Byte) (s : State) : State :=
  { s with
    err := .none, obuf := out, olen := s.ilen - 16, optr := 0
    key := Vector.replicate 32 0, keylen := 0, ibuf := [], ilen := 0
    rk := Vector.replicate 15 0, nr := 0, sreg := 0, hreg := 0, j0 := 0, cb := 0, yreg := 0, ekj0 := 0, tagc := 0
    runcmd := .none, rbpReq := .idle, phase := .done }

/-- The draw of the first answer of the RBP among some turns: the one a `SEAL` that waits from the start gets. -/
def firstDraw : List Turn → Answer
  | .rbp draw :: _ => draw
  | .engine :: rest | .request :: rest | .otherRequest :: rest => firstDraw rest
  | [] => .fail

/-- The number of the request of a `SEAL` that waits from the start of some turns, when the RBP has received `k` requests
before them: other instances' requests that come first take the numbers before it (R138). -/
def requestNumber (k : Nat) : List Turn → Nat
  | .otherRequest :: rest => requestNumber (k + 1) rest
  | .engine :: rest => requestNumber k rest
  | .request :: _ | .rbp _ :: _ | [] => k

end Sys2Proof.Machine
end

