-- ==== Sys2Proof/WellFormed.lean ====
section
/-! DEFINITION. Well-formed instructions: the operand ranges that the types of `Instr` do not already fix. -/

namespace Sys2Proof

/-- The operand ranges of the spec. A command word has no operand (R77) and a transaction's operands have their
widths by type (R71); the byte strings of `GCM.GHASH` and `GCM.GCTR` have at most `BUF_BYTES` bytes (R115, R116). -/
def Instr.wellFormed (p : Params) (i : Instr) : Bool :=
  match i with
  | .gcmGhash c => decide (c.length ≤ p.bufBytes)
  | .gcmGctr _ x => decide (x.length ≤ p.bufBytes)
  | .sealCmd | .openCmd | .clearCmd | .rd32Ctrl | .wr32Ctrl _ | .rd32Status | .wr32Status _ | .rd32Cmd
  | .wr32Cmd _ | .rd32Keylen | .wr32Keylen _ | .rd32Noncelen | .wr32Noncelen _ | .rd32Ilen | .wr32Ilen _
  | .rd32Olen | .wr32Olen _ | .rd8Keyin | .wr8Keyin _ | .rd8Noncein | .wr8Noncein _ | .rd8Din | .wr8Din _
  | .rd8Dout | .wr8Dout _ | .rd8Nonce0 | .wr8Nonce0 _ | .rd8Nonce1 | .wr8Nonce1 _ | .rd8Nonce2 | .wr8Nonce2 _
  | .rd8Nonce3 | .wr8Nonce3 _ | .rd8Nonce4 | .wr8Nonce4 _ | .rd8Nonce5 | .wr8Nonce5 _ | .rd8Nonce6
  | .wr8Nonce6 _ | .rd8Nonce7 | .wr8Nonce7 _ | .rd8Nonce8 | .wr8Nonce8 _ | .rd8Nonce9 | .wr8Nonce9 _
  | .rd8Nonce10 | .wr8Nonce10 _ | .rd8Nonce11 | .wr8Nonce11 _ | .aesKeyexp | .aesCipher _ | .gcmGfmul _ _
  | .gcmInc32 _ | .gcmInit _ | .gcmTag _ | .gcmTageq _ | .ngenDraw => true

/-- The internal operations: `SEQ` issues them inside `Complete`, the host cannot (R82). -/
def Instr.internal (i : Instr) : Bool :=
  match i with
  | .aesKeyexp | .aesCipher _ | .gcmGfmul _ _ | .gcmInc32 _ | .gcmGhash _ | .gcmGctr _ _ | .gcmInit _
  | .gcmTag _ | .gcmTageq _ | .ngenDraw => true
  | .sealCmd | .openCmd | .clearCmd | .rd32Ctrl | .wr32Ctrl _ | .rd32Status | .wr32Status _ | .rd32Cmd
  | .wr32Cmd _ | .rd32Keylen | .wr32Keylen _ | .rd32Noncelen | .wr32Noncelen _ | .rd32Ilen | .wr32Ilen _
  | .rd32Olen | .wr32Olen _ | .rd8Keyin | .wr8Keyin _ | .rd8Noncein | .wr8Noncein _ | .rd8Din | .wr8Din _
  | .rd8Dout | .wr8Dout _ | .rd8Nonce0 | .wr8Nonce0 _ | .rd8Nonce1 | .wr8Nonce1 _ | .rd8Nonce2 | .wr8Nonce2 _
  | .rd8Nonce3 | .wr8Nonce3 _ | .rd8Nonce4 | .wr8Nonce4 _ | .rd8Nonce5 | .wr8Nonce5 _ | .rd8Nonce6
  | .wr8Nonce6 _ | .rd8Nonce7 | .wr8Nonce7 _ | .rd8Nonce8 | .wr8Nonce8 _ | .rd8Nonce9 | .wr8Nonce9 _
  | .rd8Nonce10 | .wr8Nonce10 _ | .rd8Nonce11 | .wr8Nonce11 _ => false

end Sys2Proof
end

