-- ==== Sys2Proof/Certificates/Slice0/Obligations.lean ====
section
/-! DEFINITION. The statements for the provers, in the order of the spec's files. `log <n>` is notes/assumptions/<n>.md. -/

open Sys2Proof Sys2Proof.Machine

/-! ## Encodings (30_encoding.md) -/

/-- R71, R73, R81: every instruction that has an encoding is read back from it, with every operand at every value. -/
def Obligations.DecodeEncodeAgree : Prop :=
  ∀ i : Instr, i.internal = false → ∃ w, encode i = some w ∧ decode w = .ok i

/-- R71, R73, R81: a word that decodes is the encoding of what it decodes to: no instruction has two words. -/
def Obligations.EncodeDecodeAgree : Prop :=
  ∀ (w : TraceWord) (i : Instr), decode w = .ok i → encode i = some w

/-- R82: the internal operations have no encoding: no string of bytes decodes to one, no event performs one. -/
def Obligations.InternalOperationsNotEncoded : Prop :=
  ∀ i : Instr, i.internal = true →
    encode i = none ∧ (∀ l : List Byte, decodeBytes l ≠ .ok i) ∧ ∀ (p : Params) (e : Event), e.instr p ≠ some i

/-- R72, R140, R150, R160, R163, R164, R165: words that the spec writes out. -/
def Obligations.SpecWordsDecode : Prop :=
  decode (.htw 0xC000000800000001) = .ok (.wr32Cmd 1) ∧ decode (.htw 0x8000002000000041) = .ok (.wr8Keyin 0x41) ∧
  decode (.htw 0x4000000400000000) = .ok .rd32Status ∧ decode (.htw 0x0000002300000000) = .ok .rd8Dout ∧
  decode (.htw 0x0000003B00000000) = .ok .rd8Nonce11 ∧ decode (.htw 0xC0000000FFFFFFFF) = .ok (.wr32Ctrl 0xFFFFFFFF) ∧
  decode (.command 1) = .ok .sealCmd ∧ decode (.command 2) = .ok .openCmd ∧ decode (.command 3) = .ok .clearCmd

/-- R71: the fields of a host transaction word, and exactly which words are malformed. R71 says that a decoder refuses
these; that a step that meets one ends in a refusal is the model's form (log 11). -/
def Obligations.TransactionWordFields : Prop :=
  ∀ w : BitVec 64,
    let wr := w.toNat / 2 ^ 63
    let sz := w.toNat / 2 ^ 61 % 4
    let reserved := w.toNat / 2 ^ 40 % 2 ^ 21
    let off := w.toNat / 2 ^ 32 % 256
    let data := w.toNat % 2 ^ 32
    let malformed := sz = 3 ∨ reserved ≠ 0 ∨ (wr = 1 ∧ sz = 0 ∧ 2 ^ 8 ≤ data) ∨ (wr = 1 ∧ sz = 1 ∧ 2 ^ 16 ≤ data) ∨
      (wr = 0 ∧ data ≠ 0)
    (malformed → ∀ (s : State) (l : List Event), s.held = true → s.events = .word (.htw w) :: l →
      step s = .refused .malformedWord) ∧
    (¬ malformed → ∃ t : Transaction, parseHtw w = .ok t ∧ t.write = decide (wr = 1) ∧ t.size.code.toNat = sz ∧
      t.off.toNat = off ∧ t.data.toNat = data)

/-! ## Steps and the bus (20_memory.md) -/

/-- R62, R70: an event that performs an instruction does exactly what the instruction means, on the state without it. -/
def Obligations.StepRunsDecodedInstruction : Prop :=
  ∀ (s : State) (e : Event) (l : List Event) (i : Instr), s.held = true → s.events = e :: l →
    e.instr s.params = some i → step s = exec i { s with events := l }

/-- R54, R58: exactly the listed (offset, size) pairs are legal; every other is answered `BUSERR` and changes nothing. -/
def Obligations.IllegalAccessIsBusError : Prop :=
  ∀ (s : State) (l : List Event) (w : BitVec 64) (t : Transaction), s.held = true →
    s.events = .word (.htw w) :: l → parseHtw w = .ok t →
    let legal := (t.size = .b4 ∧ t.off.toNat % 4 = 0 ∧ t.off.toNat ≤ 0x18) ∨
      (t.size = .b1 ∧ (0x20 ≤ t.off.toNat ∧ t.off.toNat ≤ 0x23 ∨ 0x30 ≤ t.off.toNat ∧ t.off.toNat ≤ 0x3B))
    (legal → ∃ i, decode (.htw w) = .ok i) ∧ (¬ legal → step s = .next { s with events := l, bus := .buserr })

/-- R52: a bus address in the block reaches the CORE at its distance from `BASE`. That an access at any other address
changes nothing, not even the latest response, is the model's choice (log 21). -/
def Obligations.BusAddressReachesOffset : Prop :=
  ∀ (s : State) (l : List Event) (wr : Bool) (size : AccessSize) (addr : Nat) (data : Word), s.held = true →
    s.events = .busAccess wr size addr data :: l →
    s.params.base % 256 = 0 ∧
    (s.params.base ≤ addr → addr < s.params.base + 256 →
      step s = runDecoded (decodeTransaction ⟨wr, size, BitVec.ofNat 8 (addr - s.params.base), data⟩)
        { s with events := l }) ∧
    (addr < s.params.base ∨ s.params.base + 256 ≤ addr → step s = .next { s with events := l })

/-- R56: what every legal read returns, in every phase; only the read of `DOUT` has a side effect. -/
def Obligations.ReadsReturnRegisters : Prop :=
  ∀ s : State,
    exec .rd32Ctrl s = .next { s with bus := .ok32 (BitVec.ofNat 32 s.ie.toNat) } ∧
    exec .rd32Status s = .next { s with bus := .ok32 (BitVec.ofNat 32 (s.phase.code.toNat + 4 * s.proto.toNat +
      8 * (s.ie && decide (s.phase = .done)).toNat + 16 * s.err.code.toNat)) } ∧
    exec .rd32Cmd s = .next { s with bus := .ok32 0 } ∧
    exec .rd32Keylen s = .next { s with bus := .ok32 s.keylen } ∧
    exec .rd32Noncelen s = .next { s with bus := .ok32 s.noncelen } ∧
    exec .rd32Ilen s = .next { s with bus := .ok32 s.ilen } ∧
    exec .rd32Olen s = .next { s with bus := .ok32 s.olen } ∧
    exec .rd8Keyin s = .next { s with bus := .ok8 0 } ∧ exec .rd8Noncein s = .next { s with bus := .ok8 0 } ∧
    exec .rd8Din s = .next { s with bus := .ok8 0 } ∧
    exec .rd8Dout s = .next (if s.optr < s.olen.toNat
      then { s with optr := s.optr + 1, bus := .ok8 (s.obuf.getD s.optr 0) }
      else { s with proto := true, bus := .ok8 0 }) ∧
    exec .rd8Nonce0 s = .next { s with bus := .ok8 s.nonce[0] } ∧
    exec .rd8Nonce1 s = .next { s with bus := .ok8 s.nonce[1] } ∧
    exec .rd8Nonce2 s = .next { s with bus := .ok8 s.nonce[2] } ∧
    exec .rd8Nonce3 s = .next { s with bus := .ok8 s.nonce[3] } ∧
    exec .rd8Nonce4 s = .next { s with bus := .ok8 s.nonce[4] } ∧
    exec .rd8Nonce5 s = .next { s with bus := .ok8 s.nonce[5] } ∧
    exec .rd8Nonce6 s = .next { s with bus := .ok8 s.nonce[6] } ∧
    exec .rd8Nonce7 s = .next { s with bus := .ok8 s.nonce[7] } ∧
    exec .rd8Nonce8 s = .next { s with bus := .ok8 s.nonce[8] } ∧
    exec .rd8Nonce9 s = .next { s with bus := .ok8 s.nonce[9] } ∧
    exec .rd8Nonce10 s = .next { s with bus := .ok8 s.nonce[10] } ∧
    exec .rd8Nonce11 s = .next { s with bus := .ok8 s.nonce[11] } ∧
    ∀ (off : BitVec 8) (size : AccessSize), Reg.ofAccess off size = none →
      runDecoded (decodeTransaction ⟨false, size, off, 0⟩) s = .next { s with bus := .buserr }

/-- R57, R167: a write of any read-only register drops the value and sets `PROTO`, in every phase. -/
def Obligations.ReadOnlyWritesSetProto : Prop :=
  ∀ (s : State) (v : Word) (b : Byte) (i : Instr),
    i = .wr32Status v ∨ i = .wr32Keylen v ∨ i = .wr32Noncelen v ∨ i = .wr32Ilen v ∨ i = .wr32Olen v ∨ i = .wr8Dout b ∨
    i = .wr8Nonce0 b ∨ i = .wr8Nonce1 b ∨ i = .wr8Nonce2 b ∨ i = .wr8Nonce3 b ∨ i = .wr8Nonce4 b ∨ i = .wr8Nonce5 b ∨
    i = .wr8Nonce6 b ∨ i = .wr8Nonce7 b ∨ i = .wr8Nonce8 b ∨ i = .wr8Nonce9 b ∨ i = .wr8Nonce10 b ∨
    i = .wr8Nonce11 b →
    exec i s = .next { s with proto := true, bus := .okWrite }

/-! ## Host operations (45_control.md, 10_state.md) -/

/-- R161: a write of `CTRL` stores bit 0 into `IE`, drops the other bits, in every phase; `irq` follows at once. -/
def Obligations.CtrlWriteSetsIe : Prop :=
  ∀ (v : Word) (s : State), ∃ t, exec (.wr32Ctrl v) s = .next t ∧
    t = { s with ie := decide (v.toNat % 2 = 1), bus := .okWrite } ∧
    t.irq = (decide (v.toNat % 2 = 1) && decide (s.phase = .done))

/-- R163: a push on `KEYIN`. -/
def Obligations.PushOnKeyin : Prop :=
  ∀ (v : Byte) (s : State),
    (s.phase = .idle → ∃ t, exec (.wr8Keyin v) s = .next t ∧
      t = { s with key := t.key, keylen := t.keylen, bus := .okWrite } ∧
      (∀ i, (h : i < 32) → t.key[i] = if i = s.keylen.toNat then v else s.key[i]) ∧
      t.keylen.toNat = min (s.keylen.toNat + 1) 33) ∧
    (s.phase ≠ .idle → exec (.wr8Keyin v) s = .next { s with proto := true, bus := .okWrite })

/-- R164: a push on `NONCEIN`. -/
def Obligations.PushOnNoncein : Prop :=
  ∀ (v : Byte) (s : State),
    (s.phase = .idle → ∃ t, exec (.wr8Noncein v) s = .next t ∧
      t = { s with nonce := t.nonce, noncelen := t.noncelen, bus := .okWrite } ∧
      (∀ i, (h : i < 12) → t.nonce[i] = if i = s.noncelen.toNat then v else s.nonce[i]) ∧
      t.noncelen.toNat = min (s.noncelen.toNat + 1) 13) ∧
    (s.phase ≠ .idle → exec (.wr8Noncein v) s = .next { s with proto := true, bus := .okWrite })

/-- R165: a push on `DIN`; `IBUF` is the list of the bytes kept (log 14). -/
def Obligations.PushOnDin : Prop :=
  ∀ (v : Byte) (s : State),
    (s.phase = .idle → s.ibuf.length = min s.ilen.toNat s.params.bufBytes →
      ∃ t, exec (.wr8Din v) s = .next t ∧ t = { s with ibuf := t.ibuf, ilen := t.ilen, bus := .okWrite } ∧
        (∀ i, t.ibuf[i]? = if i = s.ilen.toNat ∧ i < s.params.bufBytes then some v else s.ibuf[i]?) ∧
        t.ilen.toNat = min (s.ilen.toNat + 1) (s.params.bufBytes + 1)) ∧
    (s.phase ≠ .idle → exec (.wr8Din v) s = .next { s with proto := true, bus := .okWrite })

/-- R166: a pop on `DOUT`, and that before a commit or after a failure it finds nothing. -/
def Obligations.PopOnDout : Prop :=
  ∀ s : State,
    (s.optr < s.olen.toNat →
      exec .rd8Dout s = .next { s with optr := s.optr + 1, bus := .ok8 (s.obuf.getD s.optr 0) }) ∧
    (s.olen.toNat ≤ s.optr → exec .rd8Dout s = .next { s with proto := true, bus := .ok8 0 }) ∧
    (s.Inv → s.phase ≠ .done ∨ s.err ≠ .none → exec .rd8Dout s = .next { s with proto := true, bus := .ok8 0 })

/-- R59, R145, R156: `OLEN` pops give the bytes of the result in order and set no `PROTO`; one more gives 0x00 and sets
it. -/
def Obligations.PopsDrainResult : Prop :=
  ∀ s : State, s.Inv → s.optr = 0 →
    let r := readBytes (popDataScript s.olen.toNat) s
    r.1 = s.obuf ∧ r.2 = { s with optr := s.olen.toNat, bus := r.2.bus } ∧
    transact .rd8Dout r.2 = { s with optr := s.olen.toNat, proto := true, bus := .ok8 0 }

/-- R26, R27, R29, R189: what the pushes of a whole string leave, and that a driver may stop one byte past the limit. -/
def Obligations.PushedStringsAndSaturation : Prop :=
  ∀ (s : State) (l : List Byte), s.phase = .idle →
    (s.keylen = 0 →
      let t := runScript (pushKeyScript l) s
      (∀ i, (h : i < 32) → t.key[i] = l.getD i s.key[i]) ∧ t.keylen.toNat = min l.length 33 ∧
      t = runScript (pushKeyScript (l.take 33)) s) ∧
    (s.noncelen = 0 →
      let t := runScript (pushNonceScript l) s
      (∀ i, (h : i < 12) → t.nonce[i] = l.getD i s.nonce[i]) ∧ t.noncelen.toNat = min l.length 13 ∧
      t = runScript (pushNonceScript (l.take 13)) s) ∧
    (s.ilen = 0 → s.ibuf = [] →
      let t := runScript (pushDataScript l) s
      t.ibuf = l.take s.params.bufBytes ∧ t.ilen.toNat = min l.length (s.params.bufBytes + 1) ∧
      t = runScript (pushDataScript (l.take (s.params.bufBytes + 1))) s)

/-- R140: `SEAL` is accepted in `IDLE` and changes nothing but `PHASE` and `RUNCMD`; in any other phase it is ignored. -/
def Obligations.SealAccepted : Prop :=
  ∀ (s : State) (i : Instr), i = .sealCmd ∨ i = .wr32Cmd 1 →
    (s.phase = .idle → exec i s = .next { s with phase := .busy, runcmd := .sealing, bus := .okWrite }) ∧
    (s.phase ≠ .idle → exec i s = .next { s with proto := true, bus := .okWrite })

/-- R150: `OPEN` is accepted in `IDLE` and changes nothing but `PHASE` and `RUNCMD`; in any other phase it is ignored. -/
def Obligations.OpenAccepted : Prop :=
  ∀ (s : State) (i : Instr), i = .openCmd ∨ i = .wr32Cmd 2 →
    (s.phase = .idle → exec i s = .next { s with phase := .busy, runcmd := .opening, bus := .okWrite }) ∧
    (s.phase ≠ .idle → exec i s = .next { s with proto := true, bus := .okWrite })

/-- R160: `CLEAR` outside `BUSY`, and in `BUSY`; after it the CORE is in its reset state but for `CTRL`. -/
def Obligations.ClearWipes : Prop :=
  ∀ (s : State) (i : Instr), i = .clearCmd ∨ i = .wr32Cmd 3 →
    (s.phase ≠ .busy → exec i s = .next { s with
      key := Vector.replicate 32 0, keylen := 0, nonce := Vector.replicate 12 0, noncelen := 0
      ibuf := [], ilen := 0, obuf := [], olen := 0, optr := 0, err := .none, proto := false, phase := .idle
      bus := .okWrite }) ∧
    (s.phase ≠ .busy → s.Inv → exec i s = .next { s.wiped with bus := .okWrite }) ∧
    (s.phase = .busy → exec i s = .next { s with proto := true, bus := .okWrite })

/-- R162: every command word but 1, 2 and 3 is ignored in every phase. -/
def Obligations.ReservedCommandIgnored : Prop :=
  ∀ (v : Word) (s : State), v ≠ 1 → v ≠ 2 → v ≠ 3 →
    exec (.wr32Cmd v) s = .next { s with proto := true, bus := .okWrite }

/-- R75, R76: the fields of `STATUS` with the numbers of the phases and of the errors. -/
def Obligations.StatusLayout : Prop :=
  ∀ s : State,
    s.status.toNat % 4 = (match s.phase with | .idle => 0 | .busy => 1 | .done => 2) ∧
    s.status.toNat / 4 % 2 = s.proto.toNat ∧
    s.status.toNat / 8 % 2 = (s.ie && decide (s.phase = .done)).toNat ∧
    s.status.toNat / 16 = (match s.err with
      | .none => 0 | .invalidKeyLength => 1 | .invalidNonceLength => 2 | .decodeError => 3
      | .randomnessFailure => 4 | .authenticationFailure => 5 | .lengthLimit => 6)

/-- R32: `irq` is a level: `IE` and `DONE`; it falls when `IE` is cleared, on an accepted `CLEAR` and on reset. -/
def Obligations.IrqIsLevel : Prop :=
  ∀ s : State,
    (s.irq = true ↔ s.ie = true ∧ s.phase = .done) ∧ s.status.getLsbD 3 = s.irq ∧
    (transact (.wr32Ctrl 0) s).irq = false ∧ (s.phase = .done → (transact .clearCmd s).irq = false) ∧
    (resetCore s).irq = false

/-- R38, R230: a reset event in any state, reachable or not, gives every piece of state of the CORE its reset value; the
parameters are not the CORE's and keep theirs, and the events still to come follow. -/
def Obligations.ResetValues : Prop :=
  ∀ (s : State) (l : List Event), s.events = .reset :: l →
    ∃ t, step s = .next t ∧ t = {
      ie := false, phase := .idle, proto := false, err := .none
      key := Vector.replicate 32 0, keylen := 0, nonce := Vector.replicate 12 0, noncelen := 0
      ibuf := [], ilen := 0, obuf := [], olen := 0, optr := 0, runcmd := .none, rbpReq := .idle
      rk := Vector.replicate 15 0, nr := 0, sreg := 0, hreg := 0, j0 := 0, cb := 0, yreg := 0, ekj0 := 0, tagc := 0
      params := s.params, rbpRequests := t.rbpRequests, bus := t.bus, result := t.result, events := l } ∧
      t.irq = false

/-! ## The Engine (43_seal.md, 44_open.md, 60_exceptions.md) -/

/-- R141, R142, R143, R144: `Complete` of a `SEAL`, its checks in order, and both commits. That the RBP's answer is read
from a request held in the state is the model's form (log 3), and that a commit clears that request is its choice
(log 22). -/
def Obligations.SealCompletes : Prop :=
  ∀ (s : State) (l : List Event), s.Inv → s.phase = .busy → s.runcmd = .sealing → s.events = .turn .engine :: l →
    let r := { s with events := l }
    let badKey := s.keylen ≠ 16 ∧ s.keylen ≠ 32
    (badKey → step s = .next (r.failed .invalidKeyLength)) ∧
    (¬ badKey → s.params.bufBytes - 16 < s.ilen.toNat → step s = .next (r.failed .lengthLimit)) ∧
    (¬ badKey → s.ilen.toNat ≤ s.params.bufBytes - 16 → s.rbpReq = .answered .fail →
      step s = .next (r.failed .randomnessFailure)) ∧
    ∀ n, ¬ badKey → s.ilen.toNat ≤ s.params.bufBytes - 16 → s.rbpReq = .answered (.ok n) →
      step s = .next (r.sealed n
        (gcmAe (cipherUnder (s.key.toList.take s.keylen.toNat)) n (s.ibuf.take s.ilen.toNat)))

/-- R151, R152, R153, R154: `Complete` of an `OPEN`, its checks in order, and both commits. -/
def Obligations.OpenCompletes : Prop :=
  ∀ (s : State) (l : List Event), s.Inv → s.phase = .busy → s.runcmd = .opening → s.events = .turn .engine :: l →
    let r := { s with events := l }
    let ad := gcmAd (cipherUnder (s.key.toList.take s.keylen.toNat)) s.nonce (s.ibuf.take s.ilen.toNat)
    step s = .next (
      if s.keylen ≠ 16 ∧ s.keylen ≠ 32 then r.failed .invalidKeyLength
      else if s.noncelen ≠ 12 then r.failed .invalidNonceLength
      else if s.params.bufBytes < s.ilen.toNat then r.failed .lengthLimit
      else if s.ilen.toNat < 16 then r.failed .authenticationFailure
      else match ad with
        | none => r.failed .authenticationFailure
        | some p => r.opened p)

/-- R155, R241: a too short input and a tag mismatch, of any key and any message, end in one and the same state. -/
def Obligations.AuthenticationFailuresIdentical : Prop :=
  ∀ (s u : State) (l : List Event),
    let rejected (v : State) := v.Inv ∧ v.phase = .busy ∧ v.runcmd = .opening ∧ v.events = .turn .engine :: l ∧
      (v.keylen = 16 ∨ v.keylen = 32) ∧ v.noncelen = 12 ∧ v.ilen.toNat ≤ v.params.bufBytes ∧
      (v.ilen.toNat < 16 ∨ gcmAd (cipherUnder v.keyBytes) v.nonce v.message = none)
    rejected s → rejected u → s.ie = u.ie → s.proto = u.proto → s.params = u.params →
    s.rbpRequests = u.rbpRequests → s.bus = u.bus → s.result = u.result →
    step s = step u

/-- R132, R138, R207: the RBP receives a request of this CORE only for a `SEAL` past its two checks whose request it has
not received, at its own turn (the turns are the model's form, log 3), and otherwise only one of another instance; a `SEAL`
whose request it has received makes no other. -/
def Obligations.OneRequestPerSeal : Prop :=
  ∀ (s t : State) (e : Event) (l : List Event), s.Inv → s.events = e :: l → step s = .next t →
    let drawing := s.phase = .busy ∧ s.runcmd = .sealing ∧ (s.keylen = 16 ∨ s.keylen = 32) ∧
      s.ilen.toNat ≤ s.params.bufBytes - 16 ∧ s.rbpReq = .idle
    t.rbpRequests = s.rbpRequests + (match e with
      | .turn .otherRequest => 1
      | .turn .request | .turn (.rbp _) => if drawing then 1 else 0
      | .turn .engine | .word _ | .busAccess _ _ _ _ | .reset => 0) ∧
    (s.rbpReq ≠ .idle → t.phase = .busy → t.rbpReq ≠ .idle)

/-- R65: while a command runs its inputs and the record of it do not change, and only the Engine or a reset ends it. -/
def Obligations.InputsFrozenInBusy : Prop :=
  ∀ (s t : State) (e : Event) (l : List Event), s.phase = .busy → s.events = e :: l → step s = .next t →
    (t.phase = .busy → t.key = s.key ∧ t.keylen = s.keylen ∧ t.nonce = s.nonce ∧ t.noncelen = s.noncelen ∧
      t.ibuf = s.ibuf ∧ t.ilen = s.ilen ∧ t.runcmd = s.runcmd) ∧
    (t.phase ≠ .busy → e = .turn .engine ∨ e = .reset)

/-- R10, R36, R131, R135, R138: the turns around a draw, whose form is the model's (logs 2, 3, 4). The Engine's only step is
`Complete`: it has none outside `BUSY` and none before the answer its `SEAL` needs. The RBP receives the pending request as
its next one, and answers it by its number, whether it received it at an earlier turn or only now; with no request to
receive or to answer its turn changes nothing; a request of another instance takes the next number. -/
def Obligations.RequestAndAnswerTurns : Prop :=
  ∀ (s : State) (l : List Event) (d : Answer), s.held = true →
    let r := { s with events := l }
    let pending := s.phase = .busy ∧ s.runcmd = .sealing ∧ (s.keylen = 16 ∨ s.keylen = 32) ∧
      s.ilen.toNat ≤ s.params.bufBytes - 16
    (s.events = .turn .engine :: l → s.phase ≠ .busy ∨ (pending ∧ ∀ a, s.rbpReq ≠ .answered a) → step s = .next r) ∧
    (s.events = .turn .request :: l →
      (pending → s.rbpReq = .idle →
        step s = .next { r with rbpReq := .waiting s.rbpRequests, rbpRequests := s.rbpRequests + 1 }) ∧
      (¬ pending ∨ s.rbpReq ≠ .idle → step s = .next r)) ∧
    (s.events = .turn (.rbp d) :: l →
      (pending → s.rbpReq = .idle → step s = .next { r with
        rbpReq := .answered (providerAnswer s.params.rbp s.rbpRequests d), rbpRequests := s.rbpRequests + 1 }) ∧
      (∀ k, s.rbpReq = .waiting k →
        step s = .next { r with rbpReq := .answered (providerAnswer s.params.rbp k d) }) ∧
      ((¬ pending ∧ s.rbpReq = .idle) ∨ (∃ a, s.rbpReq = .answered a) → step s = .next r)) ∧
    (s.events = .turn .otherRequest :: l → step s = .next { r with rbpRequests := s.rbpRequests + 1 })

/-- R136: the two deterministic providers, and that `DetCounter` repeats no answer within 2^96 requests. -/
def Obligations.DeterministicProviders : Prop :=
  (∀ (answers : List Answer) (k : Nat) (d : Answer),
    providerAnswer (.detList answers) k d = answers[k]?.getD .fail) ∧
  (∀ (seed : Nonce) (k : Nat) (d : Answer), ∃ n : Nonce, providerAnswer (.detCounter seed) k d = .ok n ∧
    intBe n.toList = (intBe seed.toList + k) % 2 ^ 96) ∧
  (∀ (seed : Nonce) (j k : Nat) (d : Answer), j < k → k < j + 2 ^ 96 →
    providerAnswer (.detCounter seed) j d ≠ providerAnswer (.detCounter seed) k d)

/-! ## The whole machine -/

/-- R168: exactly what sets `PROTO` and what clears it, over every event. -/
def Obligations.ProtoSetExactlyBy : Prop :=
  ∀ (s t : State) (e : Event) (l : List Event), s.Inv → s.events = e :: l → step s = .next t →
    (t.proto = true ↔ e ≠ .reset ∧
      (match e.instr s.params with
        | some i => i.ignored s.phase = true ∨ (i = .rd8Dout ∧ s.optr = s.olen.toNat) ∨
            (s.proto = true ∧ i.command ≠ some .clearCmd)
        | none => s.proto = true ∨ ∃ v : Word, e = .word (.command v) ∧ v ≠ 1 ∧ v ≠ 2 ∧ v ≠ 3))

/-- R21, R22: the transitions of `PHASE`, and nothing else changes it; only a host write and a reset change `CTRL`. -/
def Obligations.PhaseAndCtrlTransitions : Prop :=
  ∀ (s t : State) (e : Event) (l : List Event), s.events = e :: l → step s = .next t →
    (t.phase ≠ s.phase →
      (s.phase = .idle ∧ t.phase = .busy ∧
        ∃ i, e.instr s.params = some i ∧ (i.command = some .sealCmd ∨ i.command = some .openCmd)) ∨
      (s.phase = .busy ∧ t.phase = .done ∧ e = .turn .engine) ∨
      (s.phase = .done ∧ t.phase = .idle ∧ ∃ i, e.instr s.params = some i ∧ i.command = some .clearCmd) ∨
      (t.phase = .idle ∧ e = .reset)) ∧
    (t.ie ≠ s.ie → e = .reset ∨ ∃ v, e.instr s.params = some (.wr32Ctrl v))

/-- R26, R27, R33, R56, R216: no host transaction's response, and nothing a host can see after it, depends on `KEY`,
`IBUF` or the internal registers. -/
def Obligations.HostSeesNoSecrets : Prop :=
  ∀ (s secret t : State) (i : Instr), i.internal = false → exec i s = .next t →
    ∃ u, exec i (s.withSecrets secret) = .next u ∧ u.withSecrets t = t

/-- The invariant (R25 to R30, R35, R38, R41, R205, U8) holds right after a reset, for every value of the parameters. -/
def Obligations.InvariantAtReset : Prop :=
  (∀ (p : Params) (l : List Event), (State.start p l).Inv) ∧ ∀ s : State, (resetCore s).Inv

/-- The invariant (R25 to R30, R35, R38, R41, R205, U8) is kept by every step, from every state that meets it. -/
def Obligations.StepKeepsInvariant : Prop :=
  ∀ s t : State, s.Inv → step s = .next t → t.Inv

/-- R243, R244: the CORE never halts: from reset, under any sequence of host transactions, turns and resets, every number
of steps has a next state. -/
def Obligations.CoreNeverHalts : Prop :=
  ∀ (p : Params) (l : List Event) (k : Nat), (∀ e ∈ l, e.wellFormed = true) →
    ∃ t : State, Sys2Proof.core.run k (State.start p l) = .next t

/-- R35: zeroisation in every state that a run reaches, and its consequence for a command started without a new key. -/
def Obligations.Zeroisation : Prop :=
  ∀ (p : Params) (l : List Event) (k : Nat) (t : State), Sys2Proof.core.run k (State.start p l) = .next t →
    (t.phase ≠ .busy → t.ScratchZero) ∧
    (t.phase = .done →
      t.key = Vector.replicate 32 0 ∧ t.keylen = 0 ∧ t.ibuf = [] ∧ t.ilen = 0 ∧
      (t.err ≠ .none → t.nonce = Vector.replicate 12 0 ∧ t.noncelen = 0 ∧ t.obuf = [] ∧ t.olen = 0) ∧
      ∀ c : Instr, c = .sealCmd ∨ c = .openCmd →
        (engineTurn (transact c (transact .clearCmd t))).err = .invalidKeyLength)

/-- R135, R240: progress, with any number of other events but resets between: an answer of the RBP and a turn of the
Engine after it bring every running command to `DONE`; an `OPEN`, and a `SEAL` that fails a check, need the turn of the
Engine only. -/
def Obligations.RunningCommandReachesDone : Prop :=
  ∀ (s : State) (h1 h2 l : List Event), s.Inv → s.phase = .busy →
    (∀ e ∈ h1 ++ h2, e.wellFormed = true ∧ e ≠ .reset) →
    (∀ d, s.events = h1 ++ .turn (.rbp d) :: (h2 ++ .turn .engine :: l) →
      ∃ k t, k ≤ h1.length + h2.length + 2 ∧ Sys2Proof.core.run k s = .next t ∧ t.phase = .done) ∧
    (s.runcmd = .opening ∨ (s.keylen ≠ 16 ∧ s.keylen ≠ 32) ∨ s.params.bufBytes - 16 < s.ilen.toNat →
      s.events = h1 ++ .turn .engine :: l →
      ∃ k t, k ≤ h1.length + 1 ∧ Sys2Proof.core.run k s = .next t ∧ t.phase = .done)

/-! ## AES (40_aes_core.md) -/

/-- R93: the S-box is made from the inverse in GF(2^8) by the affine map; it is a permutation with no fixed point. -/
def Obligations.SboxDefinition : Prop :=
  (∀ a : Byte, ∃ b : Byte, (if a = 0 then b = 0 else gmul a b = 1) ∧
    ∀ i, i < 8 → (sbox a).getLsbD i =
      (b.getLsbD i ^^ b.getLsbD ((i + 4) % 8) ^^ b.getLsbD ((i + 5) % 8) ^^ b.getLsbD ((i + 6) % 8) ^^
        b.getLsbD ((i + 7) % 8) ^^ (0x63 : Byte).getLsbD i)) ∧
  Function.Bijective sbox ∧ ∀ a : Byte, sbox a ≠ a

/-- R91: `gmul` is multiplication of polynomials over GF(2) modulo x^8 + x^4 + x^3 + x + 1. -/
def Obligations.GmulIsPolynomialProduct : Prop :=
  ∀ a b : Byte,
    let poly (c : Byte) : Polynomial (ZMod 2) := ∑ i ∈ Finset.range 8, if c.getLsbD i then Polynomial.X ^ i else 0
    (Polynomial.X ^ 8 + Polynomial.X ^ 4 + Polynomial.X ^ 3 + Polynomial.X + 1 : Polynomial (ZMod 2)) ∣
      poly (gmul a b) - poly a * poly b

/-- R98, R100: `RotWord`, `SubWord` and `Rcon` on the bytes of a word, and the key schedule obeys its recurrence, for both
key lengths; round key 0 is the first 16 bytes of the key and, for a 32-byte key, round key 1 its last 16. -/
def Obligations.KeyScheduleRecurrence : Prop :=
  (∀ a0 a1 a2 a3 : Byte,
    rotWord (a0 ++ a1 ++ a2 ++ a3) = a1 ++ a2 ++ a3 ++ a0 ∧
    subWord (a0 ++ a1 ++ a2 ++ a3) = sbox a0 ++ sbox a1 ++ sbox a2 ++ sbox a3) ∧
  (∃ rc : Nat → Byte, rc 1 = 0x01 ∧ (∀ j, 2 ≤ j → j ≤ 10 → rc j = gmul (rc (j - 1)) 2) ∧
    ∀ j, 1 ≤ j → j ≤ 10 → rcon j = rc j ++ (0 : Byte) ++ (0 : Byte) ++ (0 : Byte)) ∧
  ∀ key : List Byte, key.length = 16 ∨ key.length = 32 →
    let nk := key.length / 4
    let w (i : Nat) : Word := (keyExpansion key).getD i 0
    (keyExpansion key).length = 4 * (nk + 7) ∧
    (∀ i, i < nk → w i =
      key.getD (4 * i) 0 ++ key.getD (4 * i + 1) 0 ++ key.getD (4 * i + 2) 0 ++ key.getD (4 * i + 3) 0) ∧
    (∀ i, nk ≤ i → i < 4 * (nk + 7) → w i = w (i - nk) ^^^
      (if i % nk = 0 then subWord (rotWord (w (i - 1))) ^^^ rcon (i / nk)
        else if nk = 8 ∧ i % nk = 4 then subWord (w (i - 1))
        else w (i - 1))) ∧
    (∀ r, roundKeyOf key r = w (4 * r) ++ w (4 * r + 1) ++ w (4 * r + 2) ++ w (4 * r + 3)) ∧
    roundKeyOf key 0 = ofBytes (key.take 16) ∧ (key.length = 32 → roundKeyOf key 1 = ofBytes (key.drop 16))

/-- R102: for a fixed key the cipher is a permutation of the blocks. -/
def Obligations.CipherIsPermutation : Prop :=
  ∀ key : List Byte, Function.Bijective (cipherUnder key)

/-- R101: `AES.KEYEXP` run by itself. For a `KEYLEN` other than 16 and 32 it completes with round keys that are free
values (log 8). -/
def Obligations.KeyexpWritesRoundKeys : Prop :=
  ∀ s : State, ∃ t, exec .aesKeyexp s = .next t ∧ t = { s with nr := t.nr, rk := t.rk, result := .none } ∧
    t.nr.toNat = (if s.keylen = 16 then 10 else 14) ∧
    (∀ r, (h : r < 15) → t.nr.toNat < r → t.rk[r] = s.rk[r]) ∧
    (s.keylen = 16 ∨ s.keylen = 32 →
      ∀ r, (h : r < 15) → r ≤ t.nr.toNat → t.rk[r] = roundKeyOf (s.key.toList.take s.keylen.toNat) r)

/-- R94 to R97, R102: `AES.CIPHER` run by itself (log 7): `AddRoundKey` with `RK[0]`, NR - 1 full rounds, and the last
round without `MixColumns`, under the round keys held; right after `AES.KEYEXP`, under the key held. The four round
transformations are given byte by byte; byte `r + 4c` of a block is row `r`, column `c` (R92). -/
def Obligations.CipherEncryptsBlock : Prop :=
  (∀ x k : Block,
    (∀ i, i < 16 → byteOf (subBytes x) i = sbox (byteOf x i)) ∧
    (∀ r c, r < 4 → c < 4 → byteOf (shiftRows x) (r + 4 * c) = byteOf x (r + 4 * ((c + r) % 4))) ∧
    (∀ c, c < 4 →
      let a (r : Nat) : Byte := byteOf x (4 * c + r)
      byteOf (mixColumns x) (4 * c) = gmul (a 0) 2 ^^^ gmul (a 1) 3 ^^^ a 2 ^^^ a 3 ∧
      byteOf (mixColumns x) (4 * c + 1) = a 0 ^^^ gmul (a 1) 2 ^^^ gmul (a 2) 3 ^^^ a 3 ∧
      byteOf (mixColumns x) (4 * c + 2) = a 0 ^^^ a 1 ^^^ gmul (a 2) 2 ^^^ gmul (a 3) 3 ∧
      byteOf (mixColumns x) (4 * c + 3) = gmul (a 0) 3 ^^^ a 1 ^^^ a 2 ^^^ gmul (a 3) 2) ∧
    (∀ i, i < 16 → byteOf (addRoundKey x k) i = byteOf x i ^^^ byteOf k i)) ∧
  ∀ (b : Block) (s : State),
    (∃ (after : Nat → Block) (out : Block),
      after 0 = addRoundKey b (s.roundKey 0) ∧
      (∀ r, 1 ≤ r → r < s.nr.toNat →
        after r = addRoundKey (mixColumns (shiftRows (subBytes (after (r - 1))))) (s.roundKey r)) ∧
      out = addRoundKey (shiftRows (subBytes (after (s.nr.toNat - 1)))) (s.roundKey s.nr.toNat) ∧
      exec (.aesCipher b) s = .next { s with sreg := out, result := .block out }) ∧
    (s.keylen = 16 ∨ s.keylen = 32 →
      (transact (.aesCipher b) (transact .aesKeyexp s)).result =
        .block (cipherUnder (s.key.toList.take s.keylen.toNat) b))

/-! ## GCM (41_gcm_primitives.md) -/

/-- R110, R111: `GCM.GFMUL` returns the product of the two blocks as polynomials over GF(2) modulo
x^128 + x^7 + x^2 + x + 1, bit `X_i` the coefficient of x^i, and writes no register; the corner cases of R111. -/
def Obligations.GfmulIsFieldProduct : Prop :=
  (∀ (x y : Block) (s : State), exec (.gcmGfmul x y) s = .next { s with result := .block (gfmul x y) }) ∧
  (∀ x y : Block,
    let poly (b : Block) : Polynomial (ZMod 2) := ∑ i ∈ Finset.range 128, if b.getMsbD i then Polynomial.X ^ i else 0
    (Polynomial.X ^ 128 + Polynomial.X ^ 7 + Polynomial.X ^ 2 + Polynomial.X + 1 : Polynomial (ZMod 2)) ∣
      poly (gfmul x y) - poly x * poly y) ∧
  (∀ x y z : Block, gfmul x 0 = 0 ∧ gfmul 0 x = 0 ∧ gfmul 0x80000000000000000000000000000000 y = y ∧
    gfmul x y = gfmul y x ∧ gfmul (x ^^^ y) z = gfmul x z ^^^ gfmul y z)

/-- R112: `GCM.INC32` keeps the first 12 bytes and adds 1 modulo 2^32 to the last 4, writing no register. -/
def Obligations.Inc32AddsOne : Prop :=
  ∀ (b : Block) (s : State), ∃ c : Block, exec (.gcmInc32 b) s = .next { s with result := .block c } ∧
    (∀ i, i < 12 → byteOf c i = byteOf b i) ∧ c.toNat % 2 ^ 32 = (b.toNat % 2 ^ 32 + 1) % 2 ^ 32

/-- R115: `GCM.GHASH` folds the 16-byte pieces of the padded bytes and the length block; the two corner cases. -/
def Obligations.GhashFoldsBlocks : Prop :=
  (∀ (c : List Byte) (s : State),
    let d := c ++ List.replicate ((16 - c.length % 16) % 16) 0 ++ be64 0 ++ be64 (8 * c.length)
    let y := (List.range (d.length / 16)).foldl
      (fun y j => gfmul (y ^^^ ofBytes ((d.drop (16 * j)).take 16)) s.hreg) (0 : Block)
    d.length = 16 * ((c.length + 15) / 16 + 1) ∧
    exec (.gcmGhash c) s = .next { s with yreg := y, result := .block y }) ∧
  (∀ h : Block, ghash h [] = 0) ∧ ∀ c : List Byte, ghash 0 c = 0

/-- R116: `GCM.GCTR`: the output is as long as the input, byte `i` of it is masked with byte `i` mod 16 of the key-stream
block `i` div 16, `CB` ends past the last block, and running it again gives the input back. -/
def Obligations.GctrMasksWithKeyStream : Prop :=
  ∀ (icb : Block) (x : List Byte) (s : State), ∃ (t : State) (out : List Byte),
    exec (.gcmGctr icb x) s = .next t ∧ t = { s with cb := t.cb, sreg := t.sreg, result := .bytes out } ∧
    out.length = x.length ∧
    (∀ i, (h : i < x.length) → out.getD i 0 = x[i] ^^^ byteOf (s.ciph (inc32^[i / 16] icb)) (i % 16)) ∧
    t.cb = inc32^[(x.length + 15) / 16] icb ∧
    (x = [] → t.sreg = s.sreg) ∧ (x ≠ [] → t.sreg = s.ciph (inc32^[(x.length + 15) / 16 - 1] icb)) ∧
    (transact (.gcmGctr icb out) s).result = .bytes x

/-- R117, R118, R119: `GCM.INIT` writes `H` and `J0`; `GCM.TAG` writes `EKJ0` and `TAGC` and returns the tag; each leaves
its cipher block in `S`. R118 writes `J0` from `NONCE`; that `GCM.INIT`, run by itself, takes the nonce as an argument is
the model's choice (log 7). -/
def Obligations.InitAndTagWriteScratch : Prop :=
  (∀ (n : Nonce) (s : State), ∃ t, exec (.gcmInit n) s = .next t ∧
    t = { s with hreg := s.ciph 0, sreg := s.ciph 0, j0 := t.j0, result := .none } ∧
    (∀ i, (h : i < 12) → byteOf t.j0 i = n[i]) ∧ t.j0.toNat % 2 ^ 32 = 1) ∧
  ∀ (hash : Block) (s : State), exec (.gcmTag hash) s = .next { s with
    sreg := s.ciph s.j0, ekj0 := s.ciph s.j0, tagc := s.ciph s.j0 ^^^ hash, result := .block (s.ciph s.j0 ^^^ hash) }

/-- R121: `GCM.TAGEQ` is plain equality of the two tags and writes no register. -/
def Obligations.TageqIsEquality : Prop :=
  ∀ (t : Block) (s : State), exec (.gcmTageq t) s = .next { s with result := .bit (decide (t = s.tagc)) }

/-- R132: `NGEN.DRAW` run by itself: a granted answer is returned and consumed, `Fail` raises `RandomnessFailure`; before
that its one request goes out and it waits (the model's form of a draw, logs 3 and 7). -/
def Obligations.DrawReturnsAnswer : Prop :=
  ∀ s : State,
    (∀ n, s.rbpReq = .answered (.ok n) → exec .ngenDraw s = .next { s with rbpReq := .idle, result := .nonce n }) ∧
    (s.rbpReq = .answered .fail → exec .ngenDraw s = .next (s.failed .randomnessFailure)) ∧
    (s.rbpReq = .idle →
      exec .ngenDraw s = .next { s with rbpReq := .waiting s.rbpRequests, rbpRequests := s.rbpRequests + 1 }) ∧
    (∀ k, s.rbpReq = .waiting k → exec .ngenDraw s = .next s)

/-- R124: the round trip, for every key of 16 or 32 bytes, every nonce and every message. -/
def Obligations.GcmRoundTrip : Prop :=
  ∀ (key : List Byte) (n : Nonce) (p : List Byte), key.length = 16 ∨ key.length = 32 →
    gcmAd (cipherUnder key) n (gcmAe (cipherUnder key) n p) = some p

/-- R125 (a): any other 16 bytes in place of the tag are always rejected, whatever the cipher. -/
def Obligations.AlteredTagRejected : Prop :=
  ∀ (ciph : Block → Block) (n : Nonce) (p t : List Byte), t.length = 16 →
    t ≠ (gcmAe ciph n p).drop p.length → gcmAd ciph n ((gcmAe ciph n p).take p.length ++ t) = none

/-- R125 (b): a change within block `j` of `m` changes the hash by the difference times `H` to the power m - j + 1; a
message changed within one block is rejected if and only if `H` is not zero (U9); with `H` zero any bytes in place of the
encrypted bytes are accepted. -/
def Obligations.AlteredCiphertextHash : Prop :=
  (∀ (h : Block) (a b : List Byte) (j : Nat), b.length = a.length → j < (a.length + 15) / 16 →
    (∀ i, i / 16 ≠ j → a[i]? = b[i]?) →
    ghash h a ^^^ ghash h b = (fun y => gfmul y h)^[(a.length + 15) / 16 - j + 1]
      (ofBytes (((pad16 a).drop (16 * j)).take 16) ^^^ ofBytes (((pad16 b).drop (16 * j)).take 16))) ∧
  (∀ (ciph : Block → Block) (n : Nonce) (p a : List Byte) (j : Nat),
    let enc := (gcmAe ciph n p).take p.length
    let tag := (gcmAe ciph n p).drop p.length
    a.length = p.length → a ≠ enc → (∀ i, i / 16 ≠ j → a[i]? = enc[i]?) →
    (gcmAd ciph n (a ++ tag) = none ↔ ciph 0 ≠ 0)) ∧
  ∀ (ciph : Block → Block) (n : Nonce) (p a : List Byte), ciph 0 = 0 → a.length = p.length →
    ∃ q, gcmAd ciph n (a ++ (gcmAe ciph n p).drop p.length) = some q

/-- R34, R113: within one message the block counter counts from 2 and never wraps. -/
def Obligations.CounterNeverWraps : Prop :=
  ∀ (p : Params) (nonce : Nonce) (n k : Nat), n ≤ p.bufBytes → k < (n + 15) / 16 →
    (inc32^[k] (inc32 (preCounter nonce))).toNat % 2 ^ 32 = k + 2 ∧ k + 2 ≤ 2 ^ 28 + 1

/-- R122, R123: the internal operations, run one after another on the registers, compute `GCM_AE` and `GCM_AD` under the
key held. -/
def Obligations.OperationsComputeGcm : Prop :=
  ∀ (s : State) (n : Nonce) (p ct : List Byte), s.keylen = 16 ∨ s.keylen = 32 →
    let ciph := cipherUnder (s.key.toList.take s.keylen.toNat)
    let s1 := transact (.gcmInit n) (transact .aesKeyexp s)
    let s2 := transact (.gcmGctr (inc32 s1.j0) p) s1
    (∃ c, s2.result = .bytes c ∧
      (let s3 := transact (.gcmGhash c) s2
       c ++ toBytes (transact (.gcmTag s3.yreg) s3).tagc = gcmAe ciph n p)) ∧
    (16 ≤ ct.length →
      let c := ct.take (ct.length - 16)
      let s3 := transact (.gcmGhash c) s1
      let s4 := transact (.gcmTageq (ofBytes (ct.drop (ct.length - 16)))) (transact (.gcmTag s3.yreg) s3)
      s4.result = .bit (gcmAd ciph n ct).isSome ∧
      ∀ q, gcmAd ciph n ct = some q → (transact (.gcmGctr (inc32 s4.j0) c) s4).result = .bytes q)

/-! ## The host wrapper (46_host_wrapper.md) -/

/-- R181, R182, R187: the hex codec, and that `Open` decides `DecodeError` before it touches the hardware. -/
def Obligations.HexCodec : Prop :=
  let digit (n : Nat) : Option Char :=
    ['0', '1', '2', '3', '4', '5', '6', '7', '8', '9', 'a', 'b', 'c', 'd', 'e', 'f'][n]?
  let upper (n : Nat) : Option Char := ['A', 'B', 'C', 'D', 'E', 'F'][n]?
  let bad (cs : List Char) : Prop := cs.length % 2 = 1 ∨ ∃ c ∈ cs, hexVal c = none
  (∀ (b : List Byte) (i : Nat), (h : i < b.length) →
    (hexEncode b)[2 * i]? = digit (b[i].toNat / 16) ∧ (hexEncode b)[2 * i + 1]? = digit (b[i].toNat % 16)) ∧
  (∀ b : List Byte, (hexEncode b).length = 2 * b.length ∧ hexDecode (hexEncode b) = .ok b) ∧
  (∀ (c : Char) (v : Nat), hexVal c = some v ↔ digit v = some c ∨ (10 ≤ v ∧ upper (v - 10) = some c)) ∧
  (∀ cs : List Char, bad cs → hexDecode cs = .error .decodeError) ∧
  (∀ cs : List Char, ¬ bad cs → ∃ b, hexDecode cs = .ok b ∧ 2 * b.length = cs.length ∧
    ∀ i, i < b.length → (b.getD i 0).toNat =
      16 * (hexVal (cs.getD (2 * i) '0')).getD 0 + (hexVal (cs.getD (2 * i + 1) '0')).getD 0) ∧
  (∀ (key : List Byte) (cs ns : List Char) (sched : List (List Turn)) (s : State), bad cs ∨ bad ns →
    openFn key cs ns sched s = some (.error .decodeError, s)) ∧
  (∀ (key c n : List Byte) (cs ns : List Char) (sched : List (List Turn)) (s : State),
    hexDecode cs = .ok c → hexDecode ns = .ok n → openFn key cs ns sched s = drvOpen key c n sched s)

/-- R80, R138, R183, R184, R191: `DrvSeal` on the CORE, in both its forms (polling `STATUS`, or `IRQON` first and waiting
for `irq`), whatever the key, the message, the provider and the schedule of turns (log 16): it returns what `SealSpec` says
for the answer to its request and leaves the clean `IDLE` state, with one request made exactly when the two checks before
the draw pass, beside those of other instances. It ends at the first point where the Engine has had a turn after the answer
(any turn, for a failed check), and waits under a schedule without one. That the interrupt form leaves `IE` = 1 is the
model's choice (log 23), and that the RBP's receipt of a request may be a turn of its own its form (log 3). -/
def Obligations.DrvSealIsSealSpec : Prop :=
  ∀ (key p : List Byte) (s : State), s.Inv → s.phase = .idle →
    let drawn := (key.length = 16 ∨ key.length = 32) ∧ p.length ≤ s.params.bufBytes - 16
    let ends (turns : List Turn) : Prop :=
      if drawn then ∃ d, [.rbp d, .engine].Sublist turns else .engine ∈ turns
    let value (turns : List Turn) := sealSpec s.params.bufBytes key p
      (providerAnswer s.params.rbp (requestNumber s.rbpRequests turns) (firstDraw turns))
    let clean (turns : List Turn) : State := { s.wiped with
      bus := .okWrite
      rbpRequests := s.rbpRequests + turns.count .otherRequest + (if drawn then 1 else 0) }
    (∀ sched : List (List Turn),
      (∀ used unused, sched = used ++ unused → ends used.flatten → ¬ ends used.dropLast.flatten →
        drvSeal key p sched s = some (value used.flatten, clean used.flatten)) ∧
      (¬ ends sched.flatten → drvSeal key p sched s = none)) ∧
    ∀ turns : List Turn,
      (∀ used unused, turns = used ++ unused → ends used → ¬ ends used.dropLast →
        drvSealIrq key p turns s = some (value used, { clean used with ie := true })) ∧
      (¬ ends turns → drvSealIrq key p turns s = none)

/-- R80, R138, R183, R184, R185, R192: `DrvOpen` on the CORE, polling or waiting for `irq`, whatever the key, the input,
the nonce and the schedule of turns (log 16): it returns what `OpenSpec` says, makes no request and leaves the clean `IDLE`
state, as soon as the Engine has had a turn; without one it waits. That the interrupt form leaves `IE` = 1 is the model's
choice (log 23). -/
def Obligations.DrvOpenIsOpenSpec : Prop :=
  ∀ (key ct n : List Byte) (s : State), s.Inv → s.phase = .idle →
    let value := openSpec s.params.bufBytes key ct n
    let clean (turns : List Turn) : State :=
      { s.wiped with bus := .okWrite, rbpRequests := s.rbpRequests + turns.count .otherRequest }
    (∀ sched : List (List Turn),
      (∀ used unused, sched = used ++ unused → .engine ∈ used.flatten → .engine ∉ used.dropLast.flatten →
        drvOpen key ct n sched s = some (value, clean used.flatten)) ∧
      (.engine ∉ sched.flatten → drvOpen key ct n sched s = none)) ∧
    ∀ turns : List Turn,
      (∀ used unused, turns = used ++ unused → .engine ∈ used → .engine ∉ used.dropLast →
        drvOpenIrq key ct n turns s = some (value, { clean used with ie := true })) ∧
      (.engine ∉ turns → drvOpenIrq key ct n turns s = none)
end

