-- ==== Sys2Proof/Laws/Bytes.lean ====
section
/-! SUPPORT. Blocks and their bytes: each is the other's inverse; reading bytes of an exclusive OR; the byte lanes. -/

namespace Sys2Proof.Machine

theorem getLsbD_byteOf (b : Block) (i j : Nat) :
    (byteOf b i).getLsbD j = (decide (j < 8) && b.getLsbD (120 - 8 * i + j)) := by
  simp [byteOf, BitVec.getLsbD_extractLsb']

@[simp] theorem toBytes_length (b : Block) : (toBytes b).length = 16 := by simp [toBytes]

@[simp] theorem toBytes_getElem (b : Block) (i : Nat) (h : i < (toBytes b).length) : (toBytes b)[i] = byteOf b i := by
  simp [toBytes]

/-- Two blocks with the same 16 bytes are equal. -/
theorem block_ext_byteOf {a b : Block} (h : ∀ i, i < 16 → byteOf a i = byteOf b i) : a = b := by
  apply BitVec.eq_of_getLsbD_eq
  intro j hj
  have := congrArg (fun x : Byte => x.getLsbD (j % 8)) (h (15 - j / 8) (by omega))
  simp only [getLsbD_byteOf] at this
  have h8 : j % 8 < 8 := Nat.mod_lt _ (by omega)
  have e : 120 - 8 * (15 - j / 8) + j % 8 = j := by omega
  simpa [h8, e] using this

@[simp] theorem byteOf_xor (a b : Block) (i : Nat) : byteOf (a ^^^ b) i = byteOf a i ^^^ byteOf b i := by
  apply BitVec.eq_of_getLsbD_eq
  intro j hj
  simp only [getLsbD_byteOf, BitVec.getLsbD_xor]
  cases decide (j < 8) <;> simp

theorem byteOf_shift_or_last (x : Block) (b : Byte) : byteOf ((x <<< 8) ||| b.setWidth 128) 15 = b := by
  apply BitVec.eq_of_getLsbD_eq
  intro j hj
  have h2 : j < 128 := by omega
  simp only [getLsbD_byteOf, BitVec.getLsbD_or, BitVec.getLsbD_shiftLeft, BitVec.getLsbD_setWidth]
  simp [hj, h2]

theorem byteOf_shift_or_before (x : Block) (b : Byte) (i : Nat) (h : i < 15) :
    byteOf ((x <<< 8) ||| b.setWidth 128) i = byteOf x (i + 1) := by
  apply BitVec.eq_of_getLsbD_eq
  intro j hj
  have h1 : 120 - 8 * i + j < 128 := by omega
  have h2 : ¬ 120 - 8 * i + j < 8 := by omega
  have h3 : 120 - 8 * i + j - 8 = 120 - 8 * (i + 1) + j := by omega
  have h4 : b.getLsbD (120 - 8 * i + j) = false := BitVec.getLsbD_of_ge _ _ (by omega)
  simp only [getLsbD_byteOf, BitVec.getLsbD_or, BitVec.getLsbD_shiftLeft, BitVec.getLsbD_setWidth, h3, h4]
  simp [hj, h1, h2]

/-- The bytes of a list of at most 16 bytes stand at the right end of its block. -/
theorem byteOf_ofBytes_right (l : List Byte) (hl : l.length ≤ 16) (i : Nat) (h : i < l.length) :
    byteOf (ofBytes l) (16 - l.length + i) = l[i] := by
  induction l using List.reverseRecOn generalizing i with
  | nil => simp at h
  | append_singleton l b ih =>
    simp only [List.length_append, List.length_cons, List.length_nil] at hl h
    have e : ofBytes (l ++ [b]) = (ofBytes l <<< 8) ||| b.setWidth 128 := by simp [ofBytes]
    rw [e]
    by_cases hi : i < l.length
    · have := byteOf_shift_or_before (ofBytes l) b (16 - (l ++ [b]).length + i) (by simp; omega)
      rw [this, List.getElem_append_left hi]
      have := ih (by omega) i hi
      rw [← this]
      congr 1
      simp; omega
    · have hi' : i = l.length := by omega
      subst hi'
      have : 16 - (l ++ [b]).length + l.length = 15 := by simp; omega
      rw [this, byteOf_shift_or_last]
      simp

theorem byteOf_ofBytes (l : List Byte) (hl : l.length = 16) (i : Nat) (h : i < l.length) :
    byteOf (ofBytes l) i = l[i] := by
  have := byteOf_ofBytes_right l (by omega) i h
  simpa [hl] using this

@[simp] theorem ofBytes_toBytes (b : Block) : ofBytes (toBytes b) = b := by
  apply block_ext_byteOf
  intro i hi
  rw [byteOf_ofBytes _ (toBytes_length b) i (by simpa using hi)]
  simp

theorem toBytes_ofBytes (l : List Byte) (hl : l.length = 16) : toBytes (ofBytes l) = l := by
  apply List.ext_getElem
  · simp [hl]
  · intro i h1 h2
    rw [toBytes_getElem, byteOf_ofBytes l hl i h2]

theorem toBytes_injective {a b : Block} (h : toBytes a = toBytes b) : a = b := by
  rw [← ofBytes_toBytes a, h, ofBytes_toBytes]

theorem ofBytes_injective {a b : List Byte} (ha : a.length = 16) (hb : b.length = 16) (h : ofBytes a = ofBytes b) :
    a = b := by
  rw [← toBytes_ofBytes a ha, h, toBytes_ofBytes b hb]

@[simp] theorem bytesLE_length (k n : Nat) : (bytesLE k n).length = k := by
  induction k generalizing n with
  | zero => rfl
  | succ k ih => simp [bytesLE, ih]

/-- The byte lanes hold the integer (R55). -/
theorem natLE_bytesLE (k n : Nat) : natLE (bytesLE k n) = n % 256 ^ k := by
  induction k generalizing n with
  | zero => simp [bytesLE, natLE, Nat.mod_one]
  | succ k ih =>
    have h := Nat.mod_mul (a := 256) (b := 256 ^ k) (x := n)
    rw [bytesLE, natLE, ih, BitVec.toNat_ofNat, show 256 ^ (k + 1) = 256 * 256 ^ k from Nat.pow_succ', h]

@[simp] theorem xorBytes_length (a b : List Byte) : (xorBytes a b).length = min a.length b.length := by
  simp [xorBytes]

/-- Exclusive OR with the same bytes twice gives the string back (R116). -/
theorem xorBytes_xorBytes (a k : List Byte) (h : a.length ≤ k.length) : xorBytes (xorBytes a k) k = a := by
  apply List.ext_getElem
  · simp; omega
  · intro i h1 h2
    simp [xorBytes]

@[simp] theorem be64_length (n : Nat) : (be64 n).length = 8 := by simp [be64]

/-- `TAGEQ` is equality of the two tags (R121). -/
theorem tagEq_iff (t u : Block) : tagEq t u = true ↔ t = u := by
  have or_zero : ∀ (l : List Nat) (d : Byte),
      l.foldl (fun d i => d ||| (byteOf t i ^^^ byteOf u i)) d = 0#8 ↔
        d = 0#8 ∧ ∀ i ∈ l, byteOf t i = byteOf u i := by
    intro l
    induction l with
    | nil => simp
    | cons i l ih =>
      intro d
      rw [List.foldl_cons, ih]
      rw [BitVec.or_eq_zero_iff, BitVec.xor_eq_zero_iff]
      simp only [List.mem_cons, forall_eq_or_imp, and_assoc]
  unfold tagEq
  rw [beq_iff_eq]
  have := or_zero (List.range 16) 0#8
  constructor
  · intro h
    exact block_ext_byteOf fun i hi => (this.mp h).2 i (List.mem_range.mpr hi)
  · rintro rfl
    exact this.mpr ⟨rfl, fun _ _ => rfl⟩

end Sys2Proof.Machine
end

