-- ==== Sys2Proof/Laws/Decode.lean ====
section
/-! SUPPORT. The fields of a host transaction word, and the register a legal access reaches. -/

namespace Sys2Proof

theorem htwOf_write (wr : Bool) (size : AccessSize) (off : BitVec 8) (data : Word) :
    (htwOf wr size off data).getLsbD 63 = wr := by
  cases wr <;> simp only [htwOf, BitVec.getLsbD_append] <;> simp

theorem htwOf_size (wr : Bool) (size : AccessSize) (off : BitVec 8) (data : Word) :
    (htwOf wr size off data).extractLsb' 61 2 = size.code := by
  apply BitVec.eq_of_getLsbD_eq
  intro j hj
  simp only [htwOf, BitVec.getLsbD_extractLsb', BitVec.getLsbD_append]
  simp [hj, show ¬ 61 + j < 32 by omega, show ¬ 61 + j - 32 < 8 by omega, show ¬ 61 + j - 32 - 8 < 21 by omega,
    show 61 + j - 32 - 8 - 21 = j by omega]

theorem htwOf_reserved (wr : Bool) (size : AccessSize) (off : BitVec 8) (data : Word) :
    (htwOf wr size off data).extractLsb' 40 21 = 0 := by
  apply BitVec.eq_of_getLsbD_eq
  intro j hj
  simp only [htwOf, BitVec.getLsbD_extractLsb', BitVec.getLsbD_append]
  simp [show ¬ 40 + j < 32 by omega, show ¬ 40 + j - 32 < 8 by omega, show 40 + j - 32 - 8 < 21 by omega]

theorem htwOf_off (wr : Bool) (size : AccessSize) (off : BitVec 8) (data : Word) :
    (htwOf wr size off data).extractLsb' 32 8 = off := by
  apply BitVec.eq_of_getLsbD_eq
  intro j hj
  simp only [htwOf, BitVec.getLsbD_extractLsb', BitVec.getLsbD_append]
  simp [hj, show ¬ 32 + j < 32 by omega]

theorem htwOf_data (wr : Bool) (size : AccessSize) (off : BitVec 8) (data : Word) :
    (htwOf wr size off data).extractLsb' 0 32 = data := by
  apply BitVec.eq_of_getLsbD_eq
  intro j hj
  simp only [htwOf, BitVec.getLsbD_extractLsb', BitVec.getLsbD_append]
  simp [hj]

@[simp] theorem sizeOfCode_code (size : AccessSize) : sizeOfCode size.code = some size := by
  cases size <;> rfl

/-- Parsing the word of a read gives the transaction back (R71). -/
theorem parseHtw_read (size : AccessSize) (off : BitVec 8) :
    parseHtw (htwOf false size off 0) = .ok ⟨false, size, off, 0⟩ := by
  simp only [parseHtw, htwOf_write, htwOf_size, htwOf_reserved, htwOf_off, htwOf_data, sizeOfCode_code]
  simp

/-- Parsing the word of a write whose value fits its size gives the transaction back (R71). -/
theorem parseHtw_write (size : AccessSize) (off : BitVec 8) (data : Word) (h : data >>> size.dataBits = 0) :
    parseHtw (htwOf true size off data) = .ok ⟨true, size, off, data⟩ := by
  simp only [parseHtw, htwOf_write, htwOf_size, htwOf_reserved, htwOf_off, htwOf_data, sizeOfCode_code, h]
  simp

theorem shift_setWidth_byte (v : Byte) : (v.setWidth 32 : Word) >>> (AccessSize.dataBits .b1) = 0 := by
  apply BitVec.eq_of_getLsbD_eq
  intro j hj
  simp [AccessSize.dataBits]

/-- Every register is reached by its own offset and size (R54). -/
@[simp] theorem ofAccess_offset_size (r : Reg) : Reg.ofAccess r.offset r.size = some r := by
  cases r with
  | nonce i => revert i; decide
  | _ => decide

/-- A legal access reaches the one register whose offset and size it names (R54). -/
theorem ofAccess_eq_some {off : BitVec 8} {size : AccessSize} {r : Reg} (h : Reg.ofAccess off size = some r) :
    r.offset = off ∧ r.size = size := by
  have := List.find?_some h
  simpa using this

end Sys2Proof
end

