-- ==== Sys2Proof/Laws/State.lean ====
section
/-! SUPPORT. One lemma per field and per update of the state, true by definition. -/

namespace Sys2Proof.Machine

@[simp] theorem respond_ie (s : State) (r : BusResponse) : (s.respond r).ie = s.ie := rfl
@[simp] theorem respond_phase (s : State) (r : BusResponse) : (s.respond r).phase = s.phase := rfl
@[simp] theorem respond_proto (s : State) (r : BusResponse) : (s.respond r).proto = s.proto := rfl
@[simp] theorem respond_err (s : State) (r : BusResponse) : (s.respond r).err = s.err := rfl
@[simp] theorem respond_key (s : State) (r : BusResponse) : (s.respond r).key = s.key := rfl
@[simp] theorem respond_keylen (s : State) (r : BusResponse) : (s.respond r).keylen = s.keylen := rfl
@[simp] theorem respond_nonce (s : State) (r : BusResponse) : (s.respond r).nonce = s.nonce := rfl
@[simp] theorem respond_noncelen (s : State) (r : BusResponse) : (s.respond r).noncelen = s.noncelen := rfl
@[simp] theorem respond_ibuf (s : State) (r : BusResponse) : (s.respond r).ibuf = s.ibuf := rfl
@[simp] theorem respond_ilen (s : State) (r : BusResponse) : (s.respond r).ilen = s.ilen := rfl
@[simp] theorem respond_obuf (s : State) (r : BusResponse) : (s.respond r).obuf = s.obuf := rfl
@[simp] theorem respond_olen (s : State) (r : BusResponse) : (s.respond r).olen = s.olen := rfl
@[simp] theorem respond_optr (s : State) (r : BusResponse) : (s.respond r).optr = s.optr := rfl
@[simp] theorem respond_runcmd (s : State) (r : BusResponse) : (s.respond r).runcmd = s.runcmd := rfl
@[simp] theorem respond_rbpReq (s : State) (r : BusResponse) : (s.respond r).rbpReq = s.rbpReq := rfl
@[simp] theorem respond_rk (s : State) (r : BusResponse) : (s.respond r).rk = s.rk := rfl
@[simp] theorem respond_nr (s : State) (r : BusResponse) : (s.respond r).nr = s.nr := rfl
@[simp] theorem respond_sreg (s : State) (r : BusResponse) : (s.respond r).sreg = s.sreg := rfl
@[simp] theorem respond_hreg (s : State) (r : BusResponse) : (s.respond r).hreg = s.hreg := rfl
@[simp] theorem respond_j0 (s : State) (r : BusResponse) : (s.respond r).j0 = s.j0 := rfl
@[simp] theorem respond_cb (s : State) (r : BusResponse) : (s.respond r).cb = s.cb := rfl
@[simp] theorem respond_yreg (s : State) (r : BusResponse) : (s.respond r).yreg = s.yreg := rfl
@[simp] theorem respond_ekj0 (s : State) (r : BusResponse) : (s.respond r).ekj0 = s.ekj0 := rfl
@[simp] theorem respond_tagc (s : State) (r : BusResponse) : (s.respond r).tagc = s.tagc := rfl
@[simp] theorem respond_params (s : State) (r : BusResponse) : (s.respond r).params = s.params := rfl
@[simp] theorem respond_rbpRequests (s : State) (r : BusResponse) : (s.respond r).rbpRequests = s.rbpRequests := rfl
@[simp] theorem respond_bus (s : State) (r : BusResponse) : (s.respond r).bus = r := rfl
@[simp] theorem respond_result (s : State) (r : BusResponse) : (s.respond r).result = s.result := rfl
@[simp] theorem respond_events (s : State) (r : BusResponse) : (s.respond r).events = s.events := rfl

@[simp] theorem busError_ie (s : State) : (busError s).ie = s.ie := rfl
@[simp] theorem busError_phase (s : State) : (busError s).phase = s.phase := rfl
@[simp] theorem busError_proto (s : State) : (busError s).proto = s.proto := rfl
@[simp] theorem busError_err (s : State) : (busError s).err = s.err := rfl
@[simp] theorem busError_key (s : State) : (busError s).key = s.key := rfl
@[simp] theorem busError_keylen (s : State) : (busError s).keylen = s.keylen := rfl
@[simp] theorem busError_nonce (s : State) : (busError s).nonce = s.nonce := rfl
@[simp] theorem busError_noncelen (s : State) : (busError s).noncelen = s.noncelen := rfl
@[simp] theorem busError_ibuf (s : State) : (busError s).ibuf = s.ibuf := rfl
@[simp] theorem busError_ilen (s : State) : (busError s).ilen = s.ilen := rfl
@[simp] theorem busError_obuf (s : State) : (busError s).obuf = s.obuf := rfl
@[simp] theorem busError_olen (s : State) : (busError s).olen = s.olen := rfl
@[simp] theorem busError_optr (s : State) : (busError s).optr = s.optr := rfl
@[simp] theorem busError_runcmd (s : State) : (busError s).runcmd = s.runcmd := rfl
@[simp] theorem busError_rbpReq (s : State) : (busError s).rbpReq = s.rbpReq := rfl
@[simp] theorem busError_rk (s : State) : (busError s).rk = s.rk := rfl
@[simp] theorem busError_nr (s : State) : (busError s).nr = s.nr := rfl
@[simp] theorem busError_sreg (s : State) : (busError s).sreg = s.sreg := rfl
@[simp] theorem busError_hreg (s : State) : (busError s).hreg = s.hreg := rfl
@[simp] theorem busError_j0 (s : State) : (busError s).j0 = s.j0 := rfl
@[simp] theorem busError_cb (s : State) : (busError s).cb = s.cb := rfl
@[simp] theorem busError_yreg (s : State) : (busError s).yreg = s.yreg := rfl
@[simp] theorem busError_ekj0 (s : State) : (busError s).ekj0 = s.ekj0 := rfl
@[simp] theorem busError_tagc (s : State) : (busError s).tagc = s.tagc := rfl
@[simp] theorem busError_params (s : State) : (busError s).params = s.params := rfl
@[simp] theorem busError_rbpRequests (s : State) : (busError s).rbpRequests = s.rbpRequests := rfl
@[simp] theorem busError_bus (s : State) : (busError s).bus = .buserr := rfl
@[simp] theorem busError_result (s : State) : (busError s).result = s.result := rfl
@[simp] theorem busError_events (s : State) : (busError s).events = s.events := rfl

@[simp] theorem ignoreWrite_ie (s : State) : (ignoreWrite s).ie = s.ie := rfl
@[simp] theorem ignoreWrite_phase (s : State) : (ignoreWrite s).phase = s.phase := rfl
@[simp] theorem ignoreWrite_proto (s : State) : (ignoreWrite s).proto = true := rfl
@[simp] theorem ignoreWrite_err (s : State) : (ignoreWrite s).err = s.err := rfl
@[simp] theorem ignoreWrite_key (s : State) : (ignoreWrite s).key = s.key := rfl
@[simp] theorem ignoreWrite_keylen (s : State) : (ignoreWrite s).keylen = s.keylen := rfl
@[simp] theorem ignoreWrite_nonce (s : State) : (ignoreWrite s).nonce = s.nonce := rfl
@[simp] theorem ignoreWrite_noncelen (s : State) : (ignoreWrite s).noncelen = s.noncelen := rfl
@[simp] theorem ignoreWrite_ibuf (s : State) : (ignoreWrite s).ibuf = s.ibuf := rfl
@[simp] theorem ignoreWrite_ilen (s : State) : (ignoreWrite s).ilen = s.ilen := rfl
@[simp] theorem ignoreWrite_obuf (s : State) : (ignoreWrite s).obuf = s.obuf := rfl
@[simp] theorem ignoreWrite_olen (s : State) : (ignoreWrite s).olen = s.olen := rfl
@[simp] theorem ignoreWrite_optr (s : State) : (ignoreWrite s).optr = s.optr := rfl
@[simp] theorem ignoreWrite_runcmd (s : State) : (ignoreWrite s).runcmd = s.runcmd := rfl
@[simp] theorem ignoreWrite_rbpReq (s : State) : (ignoreWrite s).rbpReq = s.rbpReq := rfl
@[simp] theorem ignoreWrite_rk (s : State) : (ignoreWrite s).rk = s.rk := rfl
@[simp] theorem ignoreWrite_nr (s : State) : (ignoreWrite s).nr = s.nr := rfl
@[simp] theorem ignoreWrite_sreg (s : State) : (ignoreWrite s).sreg = s.sreg := rfl
@[simp] theorem ignoreWrite_hreg (s : State) : (ignoreWrite s).hreg = s.hreg := rfl
@[simp] theorem ignoreWrite_j0 (s : State) : (ignoreWrite s).j0 = s.j0 := rfl
@[simp] theorem ignoreWrite_cb (s : State) : (ignoreWrite s).cb = s.cb := rfl
@[simp] theorem ignoreWrite_yreg (s : State) : (ignoreWrite s).yreg = s.yreg := rfl
@[simp] theorem ignoreWrite_ekj0 (s : State) : (ignoreWrite s).ekj0 = s.ekj0 := rfl
@[simp] theorem ignoreWrite_tagc (s : State) : (ignoreWrite s).tagc = s.tagc := rfl
@[simp] theorem ignoreWrite_params (s : State) : (ignoreWrite s).params = s.params := rfl
@[simp] theorem ignoreWrite_rbpRequests (s : State) : (ignoreWrite s).rbpRequests = s.rbpRequests := rfl
@[simp] theorem ignoreWrite_bus (s : State) : (ignoreWrite s).bus = .okWrite := rfl
@[simp] theorem ignoreWrite_result (s : State) : (ignoreWrite s).result = s.result := rfl
@[simp] theorem ignoreWrite_events (s : State) : (ignoreWrite s).events = s.events := rfl

@[simp] theorem writeCtrl_ie (v : Word) (s : State) : (writeCtrl v s).ie = v.getLsbD 0 := rfl
@[simp] theorem writeCtrl_phase (v : Word) (s : State) : (writeCtrl v s).phase = s.phase := rfl
@[simp] theorem writeCtrl_proto (v : Word) (s : State) : (writeCtrl v s).proto = s.proto := rfl
@[simp] theorem writeCtrl_err (v : Word) (s : State) : (writeCtrl v s).err = s.err := rfl
@[simp] theorem writeCtrl_key (v : Word) (s : State) : (writeCtrl v s).key = s.key := rfl
@[simp] theorem writeCtrl_keylen (v : Word) (s : State) : (writeCtrl v s).keylen = s.keylen := rfl
@[simp] theorem writeCtrl_nonce (v : Word) (s : State) : (writeCtrl v s).nonce = s.nonce := rfl
@[simp] theorem writeCtrl_noncelen (v : Word) (s : State) : (writeCtrl v s).noncelen = s.noncelen := rfl
@[simp] theorem writeCtrl_ibuf (v : Word) (s : State) : (writeCtrl v s).ibuf = s.ibuf := rfl
@[simp] theorem writeCtrl_ilen (v : Word) (s : State) : (writeCtrl v s).ilen = s.ilen := rfl
@[simp] theorem writeCtrl_obuf (v : Word) (s : State) : (writeCtrl v s).obuf = s.obuf := rfl
@[simp] theorem writeCtrl_olen (v : Word) (s : State) : (writeCtrl v s).olen = s.olen := rfl
@[simp] theorem writeCtrl_optr (v : Word) (s : State) : (writeCtrl v s).optr = s.optr := rfl
@[simp] theorem writeCtrl_runcmd (v : Word) (s : State) : (writeCtrl v s).runcmd = s.runcmd := rfl
@[simp] theorem writeCtrl_rbpReq (v : Word) (s : State) : (writeCtrl v s).rbpReq = s.rbpReq := rfl
@[simp] theorem writeCtrl_rk (v : Word) (s : State) : (writeCtrl v s).rk = s.rk := rfl
@[simp] theorem writeCtrl_nr (v : Word) (s : State) : (writeCtrl v s).nr = s.nr := rfl
@[simp] theorem writeCtrl_sreg (v : Word) (s : State) : (writeCtrl v s).sreg = s.sreg := rfl
@[simp] theorem writeCtrl_hreg (v : Word) (s : State) : (writeCtrl v s).hreg = s.hreg := rfl
@[simp] theorem writeCtrl_j0 (v : Word) (s : State) : (writeCtrl v s).j0 = s.j0 := rfl
@[simp] theorem writeCtrl_cb (v : Word) (s : State) : (writeCtrl v s).cb = s.cb := rfl
@[simp] theorem writeCtrl_yreg (v : Word) (s : State) : (writeCtrl v s).yreg = s.yreg := rfl
@[simp] theorem writeCtrl_ekj0 (v : Word) (s : State) : (writeCtrl v s).ekj0 = s.ekj0 := rfl
@[simp] theorem writeCtrl_tagc (v : Word) (s : State) : (writeCtrl v s).tagc = s.tagc := rfl
@[simp] theorem writeCtrl_params (v : Word) (s : State) : (writeCtrl v s).params = s.params := rfl
@[simp] theorem writeCtrl_rbpRequests (v : Word) (s : State) : (writeCtrl v s).rbpRequests = s.rbpRequests := rfl
@[simp] theorem writeCtrl_bus (v : Word) (s : State) : (writeCtrl v s).bus = .okWrite := rfl
@[simp] theorem writeCtrl_result (v : Word) (s : State) : (writeCtrl v s).result = s.result := rfl
@[simp] theorem writeCtrl_events (v : Word) (s : State) : (writeCtrl v s).events = s.events := rfl

@[simp] theorem zeroise_ie (s : State) : (zeroise s).ie = s.ie := rfl
@[simp] theorem zeroise_phase (s : State) : (zeroise s).phase = s.phase := rfl
@[simp] theorem zeroise_proto (s : State) : (zeroise s).proto = s.proto := rfl
@[simp] theorem zeroise_err (s : State) : (zeroise s).err = s.err := rfl
@[simp] theorem zeroise_key (s : State) : (zeroise s).key = Vector.replicate 32 0 := rfl
@[simp] theorem zeroise_keylen (s : State) : (zeroise s).keylen = 0 := rfl
@[simp] theorem zeroise_nonce (s : State) : (zeroise s).nonce = s.nonce := rfl
@[simp] theorem zeroise_noncelen (s : State) : (zeroise s).noncelen = s.noncelen := rfl
@[simp] theorem zeroise_ibuf (s : State) : (zeroise s).ibuf = [] := rfl
@[simp] theorem zeroise_ilen (s : State) : (zeroise s).ilen = 0 := rfl
@[simp] theorem zeroise_obuf (s : State) : (zeroise s).obuf = s.obuf := rfl
@[simp] theorem zeroise_olen (s : State) : (zeroise s).olen = s.olen := rfl
@[simp] theorem zeroise_optr (s : State) : (zeroise s).optr = s.optr := rfl
@[simp] theorem zeroise_runcmd (s : State) : (zeroise s).runcmd = .none := rfl
@[simp] theorem zeroise_rbpReq (s : State) : (zeroise s).rbpReq = .idle := rfl
@[simp] theorem zeroise_rk (s : State) : (zeroise s).rk = Vector.replicate 15 0 := rfl
@[simp] theorem zeroise_nr (s : State) : (zeroise s).nr = 0 := rfl
@[simp] theorem zeroise_sreg (s : State) : (zeroise s).sreg = 0 := rfl
@[simp] theorem zeroise_hreg (s : State) : (zeroise s).hreg = 0 := rfl
@[simp] theorem zeroise_j0 (s : State) : (zeroise s).j0 = 0 := rfl
@[simp] theorem zeroise_cb (s : State) : (zeroise s).cb = 0 := rfl
@[simp] theorem zeroise_yreg (s : State) : (zeroise s).yreg = 0 := rfl
@[simp] theorem zeroise_ekj0 (s : State) : (zeroise s).ekj0 = 0 := rfl
@[simp] theorem zeroise_tagc (s : State) : (zeroise s).tagc = 0 := rfl
@[simp] theorem zeroise_params (s : State) : (zeroise s).params = s.params := rfl
@[simp] theorem zeroise_rbpRequests (s : State) : (zeroise s).rbpRequests = s.rbpRequests := rfl
@[simp] theorem zeroise_bus (s : State) : (zeroise s).bus = s.bus := rfl
@[simp] theorem zeroise_result (s : State) : (zeroise s).result = s.result := rfl
@[simp] theorem zeroise_events (s : State) : (zeroise s).events = s.events := rfl

@[simp] theorem raiseError_ie (e : ErrCode) (s : State) : (raiseError e s).ie = s.ie := rfl
@[simp] theorem raiseError_phase (e : ErrCode) (s : State) : (raiseError e s).phase = .done := rfl
@[simp] theorem raiseError_proto (e : ErrCode) (s : State) : (raiseError e s).proto = s.proto := rfl
@[simp] theorem raiseError_err (e : ErrCode) (s : State) : (raiseError e s).err = e := rfl
@[simp] theorem raiseError_key (e : ErrCode) (s : State) : (raiseError e s).key = Vector.replicate 32 0 := rfl
@[simp] theorem raiseError_keylen (e : ErrCode) (s : State) : (raiseError e s).keylen = 0 := rfl
@[simp] theorem raiseError_nonce (e : ErrCode) (s : State) : (raiseError e s).nonce = Vector.replicate 12 0 := rfl
@[simp] theorem raiseError_noncelen (e : ErrCode) (s : State) : (raiseError e s).noncelen = 0 := rfl
@[simp] theorem raiseError_ibuf (e : ErrCode) (s : State) : (raiseError e s).ibuf = [] := rfl
@[simp] theorem raiseError_ilen (e : ErrCode) (s : State) : (raiseError e s).ilen = 0 := rfl
@[simp] theorem raiseError_obuf (e : ErrCode) (s : State) : (raiseError e s).obuf = [] := rfl
@[simp] theorem raiseError_olen (e : ErrCode) (s : State) : (raiseError e s).olen = 0 := rfl
@[simp] theorem raiseError_optr (e : ErrCode) (s : State) : (raiseError e s).optr = 0 := rfl
@[simp] theorem raiseError_runcmd (e : ErrCode) (s : State) : (raiseError e s).runcmd = .none := rfl
@[simp] theorem raiseError_rbpReq (e : ErrCode) (s : State) : (raiseError e s).rbpReq = .idle := rfl
@[simp] theorem raiseError_rk (e : ErrCode) (s : State) : (raiseError e s).rk = Vector.replicate 15 0 := rfl
@[simp] theorem raiseError_nr (e : ErrCode) (s : State) : (raiseError e s).nr = 0 := rfl
@[simp] theorem raiseError_sreg (e : ErrCode) (s : State) : (raiseError e s).sreg = 0 := rfl
@[simp] theorem raiseError_hreg (e : ErrCode) (s : State) : (raiseError e s).hreg = 0 := rfl
@[simp] theorem raiseError_j0 (e : ErrCode) (s : State) : (raiseError e s).j0 = 0 := rfl
@[simp] theorem raiseError_cb (e : ErrCode) (s : State) : (raiseError e s).cb = 0 := rfl
@[simp] theorem raiseError_yreg (e : ErrCode) (s : State) : (raiseError e s).yreg = 0 := rfl
@[simp] theorem raiseError_ekj0 (e : ErrCode) (s : State) : (raiseError e s).ekj0 = 0 := rfl
@[simp] theorem raiseError_tagc (e : ErrCode) (s : State) : (raiseError e s).tagc = 0 := rfl
@[simp] theorem raiseError_params (e : ErrCode) (s : State) : (raiseError e s).params = s.params := rfl
@[simp] theorem raiseError_rbpRequests (e : ErrCode) (s : State) : (raiseError e s).rbpRequests = s.rbpRequests := rfl
@[simp] theorem raiseError_bus (e : ErrCode) (s : State) : (raiseError e s).bus = s.bus := rfl
@[simp] theorem raiseError_result (e : ErrCode) (s : State) : (raiseError e s).result = s.result := rfl
@[simp] theorem raiseError_events (e : ErrCode) (s : State) : (raiseError e s).events = s.events := rfl

@[simp] theorem commitResult_ie (out : List Byte) (s : State) : (commitResult out s).ie = s.ie := rfl
@[simp] theorem commitResult_phase (out : List Byte) (s : State) : (commitResult out s).phase = .done := rfl
@[simp] theorem commitResult_proto (out : List Byte) (s : State) : (commitResult out s).proto = s.proto := rfl
@[simp] theorem commitResult_err (out : List Byte) (s : State) : (commitResult out s).err = .none := rfl
@[simp] theorem commitResult_key (out : List Byte) (s : State) : (commitResult out s).key = Vector.replicate 32 0 := rfl
@[simp] theorem commitResult_keylen (out : List Byte) (s : State) : (commitResult out s).keylen = 0 := rfl
@[simp] theorem commitResult_nonce (out : List Byte) (s : State) : (commitResult out s).nonce = s.nonce := rfl
@[simp] theorem commitResult_noncelen (out : List Byte) (s : State) : (commitResult out s).noncelen = s.noncelen := rfl
@[simp] theorem commitResult_ibuf (out : List Byte) (s : State) : (commitResult out s).ibuf = [] := rfl
@[simp] theorem commitResult_ilen (out : List Byte) (s : State) : (commitResult out s).ilen = 0 := rfl
@[simp] theorem commitResult_obuf (out : List Byte) (s : State) : (commitResult out s).obuf = out := rfl
@[simp] theorem commitResult_olen (out : List Byte) (s : State) : (commitResult out s).olen = BitVec.ofNat 32 out.length := rfl
@[simp] theorem commitResult_optr (out : List Byte) (s : State) : (commitResult out s).optr = 0 := rfl
@[simp] theorem commitResult_runcmd (out : List Byte) (s : State) : (commitResult out s).runcmd = .none := rfl
@[simp] theorem commitResult_rbpReq (out : List Byte) (s : State) : (commitResult out s).rbpReq = .idle := rfl
@[simp] theorem commitResult_rk (out : List Byte) (s : State) : (commitResult out s).rk = Vector.replicate 15 0 := rfl
@[simp] theorem commitResult_nr (out : List Byte) (s : State) : (commitResult out s).nr = 0 := rfl
@[simp] theorem commitResult_sreg (out : List Byte) (s : State) : (commitResult out s).sreg = 0 := rfl
@[simp] theorem commitResult_hreg (out : List Byte) (s : State) : (commitResult out s).hreg = 0 := rfl
@[simp] theorem commitResult_j0 (out : List Byte) (s : State) : (commitResult out s).j0 = 0 := rfl
@[simp] theorem commitResult_cb (out : List Byte) (s : State) : (commitResult out s).cb = 0 := rfl
@[simp] theorem commitResult_yreg (out : List Byte) (s : State) : (commitResult out s).yreg = 0 := rfl
@[simp] theorem commitResult_ekj0 (out : List Byte) (s : State) : (commitResult out s).ekj0 = 0 := rfl
@[simp] theorem commitResult_tagc (out : List Byte) (s : State) : (commitResult out s).tagc = 0 := rfl
@[simp] theorem commitResult_params (out : List Byte) (s : State) : (commitResult out s).params = s.params := rfl
@[simp] theorem commitResult_rbpRequests (out : List Byte) (s : State) : (commitResult out s).rbpRequests = s.rbpRequests := rfl
@[simp] theorem commitResult_bus (out : List Byte) (s : State) : (commitResult out s).bus = s.bus := rfl
@[simp] theorem commitResult_result (out : List Byte) (s : State) : (commitResult out s).result = s.result := rfl
@[simp] theorem commitResult_events (out : List Byte) (s : State) : (commitResult out s).events = s.events := rfl

@[simp] theorem commitSeal_ie (n : Nonce) (out : List Byte) (s : State) : (commitSeal n out s).ie = s.ie := rfl
@[simp] theorem commitSeal_phase (n : Nonce) (out : List Byte) (s : State) : (commitSeal n out s).phase = .done := rfl
@[simp] theorem commitSeal_proto (n : Nonce) (out : List Byte) (s : State) : (commitSeal n out s).proto = s.proto := rfl
@[simp] theorem commitSeal_err (n : Nonce) (out : List Byte) (s : State) : (commitSeal n out s).err = .none := rfl
@[simp] theorem commitSeal_key (n : Nonce) (out : List Byte) (s : State) : (commitSeal n out s).key = Vector.replicate 32 0 := rfl
@[simp] theorem commitSeal_keylen (n : Nonce) (out : List Byte) (s : State) : (commitSeal n out s).keylen = 0 := rfl
@[simp] theorem commitSeal_nonce (n : Nonce) (out : List Byte) (s : State) : (commitSeal n out s).nonce = n := rfl
@[simp] theorem commitSeal_noncelen (n : Nonce) (out : List Byte) (s : State) : (commitSeal n out s).noncelen = 12 := rfl
@[simp] theorem commitSeal_ibuf (n : Nonce) (out : List Byte) (s : State) : (commitSeal n out s).ibuf = [] := rfl
@[simp] theorem commitSeal_ilen (n : Nonce) (out : List Byte) (s : State) : (commitSeal n out s).ilen = 0 := rfl
@[simp] theorem commitSeal_obuf (n : Nonce) (out : List Byte) (s : State) : (commitSeal n out s).obuf = out := rfl
@[simp] theorem commitSeal_olen (n : Nonce) (out : List Byte) (s : State) : (commitSeal n out s).olen = BitVec.ofNat 32 out.length := rfl
@[simp] theorem commitSeal_optr (n : Nonce) (out : List Byte) (s : State) : (commitSeal n out s).optr = 0 := rfl
@[simp] theorem commitSeal_runcmd (n : Nonce) (out : List Byte) (s : State) : (commitSeal n out s).runcmd = .none := rfl
@[simp] theorem commitSeal_rbpReq (n : Nonce) (out : List Byte) (s : State) : (commitSeal n out s).rbpReq = .idle := rfl
@[simp] theorem commitSeal_rk (n : Nonce) (out : List Byte) (s : State) : (commitSeal n out s).rk = Vector.replicate 15 0 := rfl
@[simp] theorem commitSeal_nr (n : Nonce) (out : List Byte) (s : State) : (commitSeal n out s).nr = 0 := rfl
@[simp] theorem commitSeal_sreg (n : Nonce) (out : List Byte) (s : State) : (commitSeal n out s).sreg = 0 := rfl
@[simp] theorem commitSeal_hreg (n : Nonce) (out : List Byte) (s : State) : (commitSeal n out s).hreg = 0 := rfl
@[simp] theorem commitSeal_j0 (n : Nonce) (out : List Byte) (s : State) : (commitSeal n out s).j0 = 0 := rfl
@[simp] theorem commitSeal_cb (n : Nonce) (out : List Byte) (s : State) : (commitSeal n out s).cb = 0 := rfl
@[simp] theorem commitSeal_yreg (n : Nonce) (out : List Byte) (s : State) : (commitSeal n out s).yreg = 0 := rfl
@[simp] theorem commitSeal_ekj0 (n : Nonce) (out : List Byte) (s : State) : (commitSeal n out s).ekj0 = 0 := rfl
@[simp] theorem commitSeal_tagc (n : Nonce) (out : List Byte) (s : State) : (commitSeal n out s).tagc = 0 := rfl
@[simp] theorem commitSeal_params (n : Nonce) (out : List Byte) (s : State) : (commitSeal n out s).params = s.params := rfl
@[simp] theorem commitSeal_rbpRequests (n : Nonce) (out : List Byte) (s : State) : (commitSeal n out s).rbpRequests = s.rbpRequests := rfl
@[simp] theorem commitSeal_bus (n : Nonce) (out : List Byte) (s : State) : (commitSeal n out s).bus = s.bus := rfl
@[simp] theorem commitSeal_result (n : Nonce) (out : List Byte) (s : State) : (commitSeal n out s).result = s.result := rfl
@[simp] theorem commitSeal_events (n : Nonce) (out : List Byte) (s : State) : (commitSeal n out s).events = s.events := rfl

@[simp] theorem issueRequest_ie (s : State) : (issueRequest s).ie = s.ie := rfl
@[simp] theorem issueRequest_phase (s : State) : (issueRequest s).phase = s.phase := rfl
@[simp] theorem issueRequest_proto (s : State) : (issueRequest s).proto = s.proto := rfl
@[simp] theorem issueRequest_err (s : State) : (issueRequest s).err = s.err := rfl
@[simp] theorem issueRequest_key (s : State) : (issueRequest s).key = s.key := rfl
@[simp] theorem issueRequest_keylen (s : State) : (issueRequest s).keylen = s.keylen := rfl
@[simp] theorem issueRequest_nonce (s : State) : (issueRequest s).nonce = s.nonce := rfl
@[simp] theorem issueRequest_noncelen (s : State) : (issueRequest s).noncelen = s.noncelen := rfl
@[simp] theorem issueRequest_ibuf (s : State) : (issueRequest s).ibuf = s.ibuf := rfl
@[simp] theorem issueRequest_ilen (s : State) : (issueRequest s).ilen = s.ilen := rfl
@[simp] theorem issueRequest_obuf (s : State) : (issueRequest s).obuf = s.obuf := rfl
@[simp] theorem issueRequest_olen (s : State) : (issueRequest s).olen = s.olen := rfl
@[simp] theorem issueRequest_optr (s : State) : (issueRequest s).optr = s.optr := rfl
@[simp] theorem issueRequest_runcmd (s : State) : (issueRequest s).runcmd = s.runcmd := rfl
@[simp] theorem issueRequest_rbpReq (s : State) : (issueRequest s).rbpReq = .waiting s.rbpRequests := rfl
@[simp] theorem issueRequest_rk (s : State) : (issueRequest s).rk = s.rk := rfl
@[simp] theorem issueRequest_nr (s : State) : (issueRequest s).nr = s.nr := rfl
@[simp] theorem issueRequest_sreg (s : State) : (issueRequest s).sreg = s.sreg := rfl
@[simp] theorem issueRequest_hreg (s : State) : (issueRequest s).hreg = s.hreg := rfl
@[simp] theorem issueRequest_j0 (s : State) : (issueRequest s).j0 = s.j0 := rfl
@[simp] theorem issueRequest_cb (s : State) : (issueRequest s).cb = s.cb := rfl
@[simp] theorem issueRequest_yreg (s : State) : (issueRequest s).yreg = s.yreg := rfl
@[simp] theorem issueRequest_ekj0 (s : State) : (issueRequest s).ekj0 = s.ekj0 := rfl
@[simp] theorem issueRequest_tagc (s : State) : (issueRequest s).tagc = s.tagc := rfl
@[simp] theorem issueRequest_params (s : State) : (issueRequest s).params = s.params := rfl
@[simp] theorem issueRequest_rbpRequests (s : State) : (issueRequest s).rbpRequests = s.rbpRequests + 1 := rfl
@[simp] theorem issueRequest_bus (s : State) : (issueRequest s).bus = s.bus := rfl
@[simp] theorem issueRequest_result (s : State) : (issueRequest s).result = s.result := rfl
@[simp] theorem issueRequest_events (s : State) : (issueRequest s).events = s.events := rfl

@[simp] theorem opCipher_ie (b : Block) (s : State) : (opCipher b s).ie = s.ie := rfl
@[simp] theorem opCipher_phase (b : Block) (s : State) : (opCipher b s).phase = s.phase := rfl
@[simp] theorem opCipher_proto (b : Block) (s : State) : (opCipher b s).proto = s.proto := rfl
@[simp] theorem opCipher_err (b : Block) (s : State) : (opCipher b s).err = s.err := rfl
@[simp] theorem opCipher_key (b : Block) (s : State) : (opCipher b s).key = s.key := rfl
@[simp] theorem opCipher_keylen (b : Block) (s : State) : (opCipher b s).keylen = s.keylen := rfl
@[simp] theorem opCipher_nonce (b : Block) (s : State) : (opCipher b s).nonce = s.nonce := rfl
@[simp] theorem opCipher_noncelen (b : Block) (s : State) : (opCipher b s).noncelen = s.noncelen := rfl
@[simp] theorem opCipher_ibuf (b : Block) (s : State) : (opCipher b s).ibuf = s.ibuf := rfl
@[simp] theorem opCipher_ilen (b : Block) (s : State) : (opCipher b s).ilen = s.ilen := rfl
@[simp] theorem opCipher_obuf (b : Block) (s : State) : (opCipher b s).obuf = s.obuf := rfl
@[simp] theorem opCipher_olen (b : Block) (s : State) : (opCipher b s).olen = s.olen := rfl
@[simp] theorem opCipher_optr (b : Block) (s : State) : (opCipher b s).optr = s.optr := rfl
@[simp] theorem opCipher_runcmd (b : Block) (s : State) : (opCipher b s).runcmd = s.runcmd := rfl
@[simp] theorem opCipher_rbpReq (b : Block) (s : State) : (opCipher b s).rbpReq = s.rbpReq := rfl
@[simp] theorem opCipher_rk (b : Block) (s : State) : (opCipher b s).rk = s.rk := rfl
@[simp] theorem opCipher_nr (b : Block) (s : State) : (opCipher b s).nr = s.nr := rfl
@[simp] theorem opCipher_sreg (b : Block) (s : State) : (opCipher b s).sreg = s.ciph b := rfl
@[simp] theorem opCipher_hreg (b : Block) (s : State) : (opCipher b s).hreg = s.hreg := rfl
@[simp] theorem opCipher_j0 (b : Block) (s : State) : (opCipher b s).j0 = s.j0 := rfl
@[simp] theorem opCipher_cb (b : Block) (s : State) : (opCipher b s).cb = s.cb := rfl
@[simp] theorem opCipher_yreg (b : Block) (s : State) : (opCipher b s).yreg = s.yreg := rfl
@[simp] theorem opCipher_ekj0 (b : Block) (s : State) : (opCipher b s).ekj0 = s.ekj0 := rfl
@[simp] theorem opCipher_tagc (b : Block) (s : State) : (opCipher b s).tagc = s.tagc := rfl
@[simp] theorem opCipher_params (b : Block) (s : State) : (opCipher b s).params = s.params := rfl
@[simp] theorem opCipher_rbpRequests (b : Block) (s : State) : (opCipher b s).rbpRequests = s.rbpRequests := rfl
@[simp] theorem opCipher_bus (b : Block) (s : State) : (opCipher b s).bus = s.bus := rfl
@[simp] theorem opCipher_result (b : Block) (s : State) : (opCipher b s).result = s.result := rfl
@[simp] theorem opCipher_events (b : Block) (s : State) : (opCipher b s).events = s.events := rfl

@[simp] theorem opInit_ie (n : Nonce) (s : State) : (opInit n s).ie = s.ie := rfl
@[simp] theorem opInit_phase (n : Nonce) (s : State) : (opInit n s).phase = s.phase := rfl
@[simp] theorem opInit_proto (n : Nonce) (s : State) : (opInit n s).proto = s.proto := rfl
@[simp] theorem opInit_err (n : Nonce) (s : State) : (opInit n s).err = s.err := rfl
@[simp] theorem opInit_key (n : Nonce) (s : State) : (opInit n s).key = s.key := rfl
@[simp] theorem opInit_keylen (n : Nonce) (s : State) : (opInit n s).keylen = s.keylen := rfl
@[simp] theorem opInit_nonce (n : Nonce) (s : State) : (opInit n s).nonce = s.nonce := rfl
@[simp] theorem opInit_noncelen (n : Nonce) (s : State) : (opInit n s).noncelen = s.noncelen := rfl
@[simp] theorem opInit_ibuf (n : Nonce) (s : State) : (opInit n s).ibuf = s.ibuf := rfl
@[simp] theorem opInit_ilen (n : Nonce) (s : State) : (opInit n s).ilen = s.ilen := rfl
@[simp] theorem opInit_obuf (n : Nonce) (s : State) : (opInit n s).obuf = s.obuf := rfl
@[simp] theorem opInit_olen (n : Nonce) (s : State) : (opInit n s).olen = s.olen := rfl
@[simp] theorem opInit_optr (n : Nonce) (s : State) : (opInit n s).optr = s.optr := rfl
@[simp] theorem opInit_runcmd (n : Nonce) (s : State) : (opInit n s).runcmd = s.runcmd := rfl
@[simp] theorem opInit_rbpReq (n : Nonce) (s : State) : (opInit n s).rbpReq = s.rbpReq := rfl
@[simp] theorem opInit_rk (n : Nonce) (s : State) : (opInit n s).rk = s.rk := rfl
@[simp] theorem opInit_nr (n : Nonce) (s : State) : (opInit n s).nr = s.nr := rfl
@[simp] theorem opInit_sreg (n : Nonce) (s : State) : (opInit n s).sreg = s.ciph 0 := rfl
@[simp] theorem opInit_hreg (n : Nonce) (s : State) : (opInit n s).hreg = s.ciph 0 := rfl
@[simp] theorem opInit_j0 (n : Nonce) (s : State) : (opInit n s).j0 = preCounter n := rfl
@[simp] theorem opInit_cb (n : Nonce) (s : State) : (opInit n s).cb = s.cb := rfl
@[simp] theorem opInit_yreg (n : Nonce) (s : State) : (opInit n s).yreg = s.yreg := rfl
@[simp] theorem opInit_ekj0 (n : Nonce) (s : State) : (opInit n s).ekj0 = s.ekj0 := rfl
@[simp] theorem opInit_tagc (n : Nonce) (s : State) : (opInit n s).tagc = s.tagc := rfl
@[simp] theorem opInit_params (n : Nonce) (s : State) : (opInit n s).params = s.params := rfl
@[simp] theorem opInit_rbpRequests (n : Nonce) (s : State) : (opInit n s).rbpRequests = s.rbpRequests := rfl
@[simp] theorem opInit_bus (n : Nonce) (s : State) : (opInit n s).bus = s.bus := rfl
@[simp] theorem opInit_result (n : Nonce) (s : State) : (opInit n s).result = s.result := rfl
@[simp] theorem opInit_events (n : Nonce) (s : State) : (opInit n s).events = s.events := rfl

@[simp] theorem opGctr_ie (icb : Block) (x : List Byte) (s : State) : (opGctr icb x s).ie = s.ie := rfl
@[simp] theorem opGctr_phase (icb : Block) (x : List Byte) (s : State) : (opGctr icb x s).phase = s.phase := rfl
@[simp] theorem opGctr_proto (icb : Block) (x : List Byte) (s : State) : (opGctr icb x s).proto = s.proto := rfl
@[simp] theorem opGctr_err (icb : Block) (x : List Byte) (s : State) : (opGctr icb x s).err = s.err := rfl
@[simp] theorem opGctr_key (icb : Block) (x : List Byte) (s : State) : (opGctr icb x s).key = s.key := rfl
@[simp] theorem opGctr_keylen (icb : Block) (x : List Byte) (s : State) : (opGctr icb x s).keylen = s.keylen := rfl
@[simp] theorem opGctr_nonce (icb : Block) (x : List Byte) (s : State) : (opGctr icb x s).nonce = s.nonce := rfl
@[simp] theorem opGctr_noncelen (icb : Block) (x : List Byte) (s : State) : (opGctr icb x s).noncelen = s.noncelen := rfl
@[simp] theorem opGctr_ibuf (icb : Block) (x : List Byte) (s : State) : (opGctr icb x s).ibuf = s.ibuf := rfl
@[simp] theorem opGctr_ilen (icb : Block) (x : List Byte) (s : State) : (opGctr icb x s).ilen = s.ilen := rfl
@[simp] theorem opGctr_obuf (icb : Block) (x : List Byte) (s : State) : (opGctr icb x s).obuf = s.obuf := rfl
@[simp] theorem opGctr_olen (icb : Block) (x : List Byte) (s : State) : (opGctr icb x s).olen = s.olen := rfl
@[simp] theorem opGctr_optr (icb : Block) (x : List Byte) (s : State) : (opGctr icb x s).optr = s.optr := rfl
@[simp] theorem opGctr_runcmd (icb : Block) (x : List Byte) (s : State) : (opGctr icb x s).runcmd = s.runcmd := rfl
@[simp] theorem opGctr_rbpReq (icb : Block) (x : List Byte) (s : State) : (opGctr icb x s).rbpReq = s.rbpReq := rfl
@[simp] theorem opGctr_rk (icb : Block) (x : List Byte) (s : State) : (opGctr icb x s).rk = s.rk := rfl
@[simp] theorem opGctr_nr (icb : Block) (x : List Byte) (s : State) : (opGctr icb x s).nr = s.nr := rfl
@[simp] theorem opGctr_hreg (icb : Block) (x : List Byte) (s : State) : (opGctr icb x s).hreg = s.hreg := rfl
@[simp] theorem opGctr_j0 (icb : Block) (x : List Byte) (s : State) : (opGctr icb x s).j0 = s.j0 := rfl
@[simp] theorem opGctr_cb (icb : Block) (x : List Byte) (s : State) : (opGctr icb x s).cb = incBy (blockCount x.length) icb := rfl
@[simp] theorem opGctr_yreg (icb : Block) (x : List Byte) (s : State) : (opGctr icb x s).yreg = s.yreg := rfl
@[simp] theorem opGctr_ekj0 (icb : Block) (x : List Byte) (s : State) : (opGctr icb x s).ekj0 = s.ekj0 := rfl
@[simp] theorem opGctr_tagc (icb : Block) (x : List Byte) (s : State) : (opGctr icb x s).tagc = s.tagc := rfl
@[simp] theorem opGctr_params (icb : Block) (x : List Byte) (s : State) : (opGctr icb x s).params = s.params := rfl
@[simp] theorem opGctr_rbpRequests (icb : Block) (x : List Byte) (s : State) : (opGctr icb x s).rbpRequests = s.rbpRequests := rfl
@[simp] theorem opGctr_bus (icb : Block) (x : List Byte) (s : State) : (opGctr icb x s).bus = s.bus := rfl
@[simp] theorem opGctr_result (icb : Block) (x : List Byte) (s : State) : (opGctr icb x s).result = s.result := rfl
@[simp] theorem opGctr_events (icb : Block) (x : List Byte) (s : State) : (opGctr icb x s).events = s.events := rfl

@[simp] theorem opGhash_ie (c : List Byte) (s : State) : (opGhash c s).ie = s.ie := rfl
@[simp] theorem opGhash_phase (c : List Byte) (s : State) : (opGhash c s).phase = s.phase := rfl
@[simp] theorem opGhash_proto (c : List Byte) (s : State) : (opGhash c s).proto = s.proto := rfl
@[simp] theorem opGhash_err (c : List Byte) (s : State) : (opGhash c s).err = s.err := rfl
@[simp] theorem opGhash_key (c : List Byte) (s : State) : (opGhash c s).key = s.key := rfl
@[simp] theorem opGhash_keylen (c : List Byte) (s : State) : (opGhash c s).keylen = s.keylen := rfl
@[simp] theorem opGhash_nonce (c : List Byte) (s : State) : (opGhash c s).nonce = s.nonce := rfl
@[simp] theorem opGhash_noncelen (c : List Byte) (s : State) : (opGhash c s).noncelen = s.noncelen := rfl
@[simp] theorem opGhash_ibuf (c : List Byte) (s : State) : (opGhash c s).ibuf = s.ibuf := rfl
@[simp] theorem opGhash_ilen (c : List Byte) (s : State) : (opGhash c s).ilen = s.ilen := rfl
@[simp] theorem opGhash_obuf (c : List Byte) (s : State) : (opGhash c s).obuf = s.obuf := rfl
@[simp] theorem opGhash_olen (c : List Byte) (s : State) : (opGhash c s).olen = s.olen := rfl
@[simp] theorem opGhash_optr (c : List Byte) (s : State) : (opGhash c s).optr = s.optr := rfl
@[simp] theorem opGhash_runcmd (c : List Byte) (s : State) : (opGhash c s).runcmd = s.runcmd := rfl
@[simp] theorem opGhash_rbpReq (c : List Byte) (s : State) : (opGhash c s).rbpReq = s.rbpReq := rfl
@[simp] theorem opGhash_rk (c : List Byte) (s : State) : (opGhash c s).rk = s.rk := rfl
@[simp] theorem opGhash_nr (c : List Byte) (s : State) : (opGhash c s).nr = s.nr := rfl
@[simp] theorem opGhash_sreg (c : List Byte) (s : State) : (opGhash c s).sreg = s.sreg := rfl
@[simp] theorem opGhash_hreg (c : List Byte) (s : State) : (opGhash c s).hreg = s.hreg := rfl
@[simp] theorem opGhash_j0 (c : List Byte) (s : State) : (opGhash c s).j0 = s.j0 := rfl
@[simp] theorem opGhash_cb (c : List Byte) (s : State) : (opGhash c s).cb = s.cb := rfl
@[simp] theorem opGhash_yreg (c : List Byte) (s : State) : (opGhash c s).yreg = ghash s.hreg c := rfl
@[simp] theorem opGhash_ekj0 (c : List Byte) (s : State) : (opGhash c s).ekj0 = s.ekj0 := rfl
@[simp] theorem opGhash_tagc (c : List Byte) (s : State) : (opGhash c s).tagc = s.tagc := rfl
@[simp] theorem opGhash_params (c : List Byte) (s : State) : (opGhash c s).params = s.params := rfl
@[simp] theorem opGhash_rbpRequests (c : List Byte) (s : State) : (opGhash c s).rbpRequests = s.rbpRequests := rfl
@[simp] theorem opGhash_bus (c : List Byte) (s : State) : (opGhash c s).bus = s.bus := rfl
@[simp] theorem opGhash_result (c : List Byte) (s : State) : (opGhash c s).result = s.result := rfl
@[simp] theorem opGhash_events (c : List Byte) (s : State) : (opGhash c s).events = s.events := rfl

@[simp] theorem opTag_ie (h : Block) (s : State) : (opTag h s).ie = s.ie := rfl
@[simp] theorem opTag_phase (h : Block) (s : State) : (opTag h s).phase = s.phase := rfl
@[simp] theorem opTag_proto (h : Block) (s : State) : (opTag h s).proto = s.proto := rfl
@[simp] theorem opTag_err (h : Block) (s : State) : (opTag h s).err = s.err := rfl
@[simp] theorem opTag_key (h : Block) (s : State) : (opTag h s).key = s.key := rfl
@[simp] theorem opTag_keylen (h : Block) (s : State) : (opTag h s).keylen = s.keylen := rfl
@[simp] theorem opTag_nonce (h : Block) (s : State) : (opTag h s).nonce = s.nonce := rfl
@[simp] theorem opTag_noncelen (h : Block) (s : State) : (opTag h s).noncelen = s.noncelen := rfl
@[simp] theorem opTag_ibuf (h : Block) (s : State) : (opTag h s).ibuf = s.ibuf := rfl
@[simp] theorem opTag_ilen (h : Block) (s : State) : (opTag h s).ilen = s.ilen := rfl
@[simp] theorem opTag_obuf (h : Block) (s : State) : (opTag h s).obuf = s.obuf := rfl
@[simp] theorem opTag_olen (h : Block) (s : State) : (opTag h s).olen = s.olen := rfl
@[simp] theorem opTag_optr (h : Block) (s : State) : (opTag h s).optr = s.optr := rfl
@[simp] theorem opTag_runcmd (h : Block) (s : State) : (opTag h s).runcmd = s.runcmd := rfl
@[simp] theorem opTag_rbpReq (h : Block) (s : State) : (opTag h s).rbpReq = s.rbpReq := rfl
@[simp] theorem opTag_rk (h : Block) (s : State) : (opTag h s).rk = s.rk := rfl
@[simp] theorem opTag_nr (h : Block) (s : State) : (opTag h s).nr = s.nr := rfl
@[simp] theorem opTag_sreg (h : Block) (s : State) : (opTag h s).sreg = s.ciph s.j0 := rfl
@[simp] theorem opTag_hreg (h : Block) (s : State) : (opTag h s).hreg = s.hreg := rfl
@[simp] theorem opTag_j0 (h : Block) (s : State) : (opTag h s).j0 = s.j0 := rfl
@[simp] theorem opTag_cb (h : Block) (s : State) : (opTag h s).cb = s.cb := rfl
@[simp] theorem opTag_yreg (h : Block) (s : State) : (opTag h s).yreg = s.yreg := rfl
@[simp] theorem opTag_ekj0 (h : Block) (s : State) : (opTag h s).ekj0 = s.ciph s.j0 := rfl
@[simp] theorem opTag_tagc (h : Block) (s : State) : (opTag h s).tagc = s.ciph s.j0 ^^^ h := rfl
@[simp] theorem opTag_params (h : Block) (s : State) : (opTag h s).params = s.params := rfl
@[simp] theorem opTag_rbpRequests (h : Block) (s : State) : (opTag h s).rbpRequests = s.rbpRequests := rfl
@[simp] theorem opTag_bus (h : Block) (s : State) : (opTag h s).bus = s.bus := rfl
@[simp] theorem opTag_result (h : Block) (s : State) : (opTag h s).result = s.result := rfl
@[simp] theorem opTag_events (h : Block) (s : State) : (opTag h s).events = s.events := rfl

@[simp] theorem opKeyexp_ie (s : State) : (opKeyexp s).ie = s.ie := rfl
@[simp] theorem opKeyexp_phase (s : State) : (opKeyexp s).phase = s.phase := rfl
@[simp] theorem opKeyexp_proto (s : State) : (opKeyexp s).proto = s.proto := rfl
@[simp] theorem opKeyexp_err (s : State) : (opKeyexp s).err = s.err := rfl
@[simp] theorem opKeyexp_key (s : State) : (opKeyexp s).key = s.key := rfl
@[simp] theorem opKeyexp_keylen (s : State) : (opKeyexp s).keylen = s.keylen := rfl
@[simp] theorem opKeyexp_nonce (s : State) : (opKeyexp s).nonce = s.nonce := rfl
@[simp] theorem opKeyexp_noncelen (s : State) : (opKeyexp s).noncelen = s.noncelen := rfl
@[simp] theorem opKeyexp_ibuf (s : State) : (opKeyexp s).ibuf = s.ibuf := rfl
@[simp] theorem opKeyexp_ilen (s : State) : (opKeyexp s).ilen = s.ilen := rfl
@[simp] theorem opKeyexp_obuf (s : State) : (opKeyexp s).obuf = s.obuf := rfl
@[simp] theorem opKeyexp_olen (s : State) : (opKeyexp s).olen = s.olen := rfl
@[simp] theorem opKeyexp_optr (s : State) : (opKeyexp s).optr = s.optr := rfl
@[simp] theorem opKeyexp_runcmd (s : State) : (opKeyexp s).runcmd = s.runcmd := rfl
@[simp] theorem opKeyexp_rbpReq (s : State) : (opKeyexp s).rbpReq = s.rbpReq := rfl
@[simp] theorem opKeyexp_nr (s : State) : (opKeyexp s).nr = if s.keylen = 16 then 10 else 14 := rfl
@[simp] theorem opKeyexp_sreg (s : State) : (opKeyexp s).sreg = s.sreg := rfl
@[simp] theorem opKeyexp_hreg (s : State) : (opKeyexp s).hreg = s.hreg := rfl
@[simp] theorem opKeyexp_j0 (s : State) : (opKeyexp s).j0 = s.j0 := rfl
@[simp] theorem opKeyexp_cb (s : State) : (opKeyexp s).cb = s.cb := rfl
@[simp] theorem opKeyexp_yreg (s : State) : (opKeyexp s).yreg = s.yreg := rfl
@[simp] theorem opKeyexp_ekj0 (s : State) : (opKeyexp s).ekj0 = s.ekj0 := rfl
@[simp] theorem opKeyexp_tagc (s : State) : (opKeyexp s).tagc = s.tagc := rfl
@[simp] theorem opKeyexp_params (s : State) : (opKeyexp s).params = s.params := rfl
@[simp] theorem opKeyexp_rbpRequests (s : State) : (opKeyexp s).rbpRequests = s.rbpRequests := rfl
@[simp] theorem opKeyexp_bus (s : State) : (opKeyexp s).bus = s.bus := rfl
@[simp] theorem opKeyexp_result (s : State) : (opKeyexp s).result = s.result := rfl
@[simp] theorem opKeyexp_events (s : State) : (opKeyexp s).events = s.events := rfl

@[simp] theorem resetCore_ie (s : State) : (resetCore s).ie = State.reset.ie := rfl
@[simp] theorem resetCore_phase (s : State) : (resetCore s).phase = State.reset.phase := rfl
@[simp] theorem resetCore_proto (s : State) : (resetCore s).proto = State.reset.proto := rfl
@[simp] theorem resetCore_err (s : State) : (resetCore s).err = State.reset.err := rfl
@[simp] theorem resetCore_key (s : State) : (resetCore s).key = State.reset.key := rfl
@[simp] theorem resetCore_keylen (s : State) : (resetCore s).keylen = State.reset.keylen := rfl
@[simp] theorem resetCore_nonce (s : State) : (resetCore s).nonce = State.reset.nonce := rfl
@[simp] theorem resetCore_noncelen (s : State) : (resetCore s).noncelen = State.reset.noncelen := rfl
@[simp] theorem resetCore_ibuf (s : State) : (resetCore s).ibuf = State.reset.ibuf := rfl
@[simp] theorem resetCore_ilen (s : State) : (resetCore s).ilen = State.reset.ilen := rfl
@[simp] theorem resetCore_obuf (s : State) : (resetCore s).obuf = State.reset.obuf := rfl
@[simp] theorem resetCore_olen (s : State) : (resetCore s).olen = State.reset.olen := rfl
@[simp] theorem resetCore_optr (s : State) : (resetCore s).optr = State.reset.optr := rfl
@[simp] theorem resetCore_runcmd (s : State) : (resetCore s).runcmd = State.reset.runcmd := rfl
@[simp] theorem resetCore_rbpReq (s : State) : (resetCore s).rbpReq = State.reset.rbpReq := rfl
@[simp] theorem resetCore_rk (s : State) : (resetCore s).rk = State.reset.rk := rfl
@[simp] theorem resetCore_nr (s : State) : (resetCore s).nr = State.reset.nr := rfl
@[simp] theorem resetCore_sreg (s : State) : (resetCore s).sreg = State.reset.sreg := rfl
@[simp] theorem resetCore_hreg (s : State) : (resetCore s).hreg = State.reset.hreg := rfl
@[simp] theorem resetCore_j0 (s : State) : (resetCore s).j0 = State.reset.j0 := rfl
@[simp] theorem resetCore_cb (s : State) : (resetCore s).cb = State.reset.cb := rfl
@[simp] theorem resetCore_yreg (s : State) : (resetCore s).yreg = State.reset.yreg := rfl
@[simp] theorem resetCore_ekj0 (s : State) : (resetCore s).ekj0 = State.reset.ekj0 := rfl
@[simp] theorem resetCore_tagc (s : State) : (resetCore s).tagc = State.reset.tagc := rfl
@[simp] theorem resetCore_params (s : State) : (resetCore s).params = s.params := rfl
@[simp] theorem resetCore_rbpRequests (s : State) : (resetCore s).rbpRequests = s.rbpRequests := rfl
@[simp] theorem resetCore_bus (s : State) : (resetCore s).bus = State.reset.bus := rfl
@[simp] theorem resetCore_result (s : State) : (resetCore s).result = State.reset.result := rfl
@[simp] theorem resetCore_events (s : State) : (resetCore s).events = s.events := rfl

@[simp] theorem reset_ie : State.reset.ie = false := rfl
@[simp] theorem reset_phase : State.reset.phase = .idle := rfl
@[simp] theorem reset_proto : State.reset.proto = false := rfl
@[simp] theorem reset_err : State.reset.err = .none := rfl
@[simp] theorem reset_key : State.reset.key = Vector.replicate 32 0 := rfl
@[simp] theorem reset_keylen : State.reset.keylen = 0 := rfl
@[simp] theorem reset_nonce : State.reset.nonce = Vector.replicate 12 0 := rfl
@[simp] theorem reset_noncelen : State.reset.noncelen = 0 := rfl
@[simp] theorem reset_ibuf : State.reset.ibuf = [] := rfl
@[simp] theorem reset_ilen : State.reset.ilen = 0 := rfl
@[simp] theorem reset_obuf : State.reset.obuf = [] := rfl
@[simp] theorem reset_olen : State.reset.olen = 0 := rfl
@[simp] theorem reset_optr : State.reset.optr = 0 := rfl
@[simp] theorem reset_runcmd : State.reset.runcmd = .none := rfl
@[simp] theorem reset_rbpReq : State.reset.rbpReq = .idle := rfl
@[simp] theorem reset_rk : State.reset.rk = Vector.replicate 15 0 := rfl
@[simp] theorem reset_nr : State.reset.nr = 0 := rfl
@[simp] theorem reset_sreg : State.reset.sreg = 0 := rfl
@[simp] theorem reset_hreg : State.reset.hreg = 0 := rfl
@[simp] theorem reset_j0 : State.reset.j0 = 0 := rfl
@[simp] theorem reset_cb : State.reset.cb = 0 := rfl
@[simp] theorem reset_yreg : State.reset.yreg = 0 := rfl
@[simp] theorem reset_ekj0 : State.reset.ekj0 = 0 := rfl
@[simp] theorem reset_tagc : State.reset.tagc = 0 := rfl
@[simp] theorem reset_rbpRequests : State.reset.rbpRequests = 0 := rfl
@[simp] theorem reset_bus : State.reset.bus = .none := rfl
@[simp] theorem reset_result : State.reset.result = .none := rfl
@[simp] theorem reset_events : State.reset.events = [] := rfl

@[simp] theorem start_ie (p : Params) (l : List Event) : (State.start p l).ie = false := rfl
@[simp] theorem start_phase (p : Params) (l : List Event) : (State.start p l).phase = .idle := rfl
@[simp] theorem start_proto (p : Params) (l : List Event) : (State.start p l).proto = false := rfl
@[simp] theorem start_err (p : Params) (l : List Event) : (State.start p l).err = .none := rfl
@[simp] theorem start_key (p : Params) (l : List Event) : (State.start p l).key = Vector.replicate 32 0 := rfl
@[simp] theorem start_keylen (p : Params) (l : List Event) : (State.start p l).keylen = 0 := rfl
@[simp] theorem start_nonce (p : Params) (l : List Event) : (State.start p l).nonce = Vector.replicate 12 0 := rfl
@[simp] theorem start_noncelen (p : Params) (l : List Event) : (State.start p l).noncelen = 0 := rfl
@[simp] theorem start_ibuf (p : Params) (l : List Event) : (State.start p l).ibuf = [] := rfl
@[simp] theorem start_ilen (p : Params) (l : List Event) : (State.start p l).ilen = 0 := rfl
@[simp] theorem start_obuf (p : Params) (l : List Event) : (State.start p l).obuf = [] := rfl
@[simp] theorem start_olen (p : Params) (l : List Event) : (State.start p l).olen = 0 := rfl
@[simp] theorem start_optr (p : Params) (l : List Event) : (State.start p l).optr = 0 := rfl
@[simp] theorem start_runcmd (p : Params) (l : List Event) : (State.start p l).runcmd = .none := rfl
@[simp] theorem start_rbpReq (p : Params) (l : List Event) : (State.start p l).rbpReq = .idle := rfl
@[simp] theorem start_rk (p : Params) (l : List Event) : (State.start p l).rk = Vector.replicate 15 0 := rfl
@[simp] theorem start_nr (p : Params) (l : List Event) : (State.start p l).nr = 0 := rfl
@[simp] theorem start_sreg (p : Params) (l : List Event) : (State.start p l).sreg = 0 := rfl
@[simp] theorem start_hreg (p : Params) (l : List Event) : (State.start p l).hreg = 0 := rfl
@[simp] theorem start_j0 (p : Params) (l : List Event) : (State.start p l).j0 = 0 := rfl
@[simp] theorem start_cb (p : Params) (l : List Event) : (State.start p l).cb = 0 := rfl
@[simp] theorem start_yreg (p : Params) (l : List Event) : (State.start p l).yreg = 0 := rfl
@[simp] theorem start_ekj0 (p : Params) (l : List Event) : (State.start p l).ekj0 = 0 := rfl
@[simp] theorem start_tagc (p : Params) (l : List Event) : (State.start p l).tagc = 0 := rfl
@[simp] theorem start_params (p : Params) (l : List Event) : (State.start p l).params = p := rfl
@[simp] theorem start_rbpRequests (p : Params) (l : List Event) : (State.start p l).rbpRequests = 0 := rfl
@[simp] theorem start_bus (p : Params) (l : List Event) : (State.start p l).bus = .none := rfl
@[simp] theorem start_result (p : Params) (l : List Event) : (State.start p l).result = .none := rfl
@[simp] theorem start_events (p : Params) (l : List Event) : (State.start p l).events = l := rfl

@[simp] theorem withSecrets_ie (s x : State) : (s.withSecrets x).ie = s.ie := rfl
@[simp] theorem withSecrets_phase (s x : State) : (s.withSecrets x).phase = s.phase := rfl
@[simp] theorem withSecrets_proto (s x : State) : (s.withSecrets x).proto = s.proto := rfl
@[simp] theorem withSecrets_err (s x : State) : (s.withSecrets x).err = s.err := rfl
@[simp] theorem withSecrets_key (s x : State) : (s.withSecrets x).key = x.key := rfl
@[simp] theorem withSecrets_keylen (s x : State) : (s.withSecrets x).keylen = s.keylen := rfl
@[simp] theorem withSecrets_nonce (s x : State) : (s.withSecrets x).nonce = s.nonce := rfl
@[simp] theorem withSecrets_noncelen (s x : State) : (s.withSecrets x).noncelen = s.noncelen := rfl
@[simp] theorem withSecrets_ibuf (s x : State) : (s.withSecrets x).ibuf = x.ibuf := rfl
@[simp] theorem withSecrets_ilen (s x : State) : (s.withSecrets x).ilen = s.ilen := rfl
@[simp] theorem withSecrets_obuf (s x : State) : (s.withSecrets x).obuf = s.obuf := rfl
@[simp] theorem withSecrets_olen (s x : State) : (s.withSecrets x).olen = s.olen := rfl
@[simp] theorem withSecrets_optr (s x : State) : (s.withSecrets x).optr = s.optr := rfl
@[simp] theorem withSecrets_runcmd (s x : State) : (s.withSecrets x).runcmd = s.runcmd := rfl
@[simp] theorem withSecrets_rbpReq (s x : State) : (s.withSecrets x).rbpReq = s.rbpReq := rfl
@[simp] theorem withSecrets_rk (s x : State) : (s.withSecrets x).rk = x.rk := rfl
@[simp] theorem withSecrets_nr (s x : State) : (s.withSecrets x).nr = x.nr := rfl
@[simp] theorem withSecrets_sreg (s x : State) : (s.withSecrets x).sreg = x.sreg := rfl
@[simp] theorem withSecrets_hreg (s x : State) : (s.withSecrets x).hreg = x.hreg := rfl
@[simp] theorem withSecrets_j0 (s x : State) : (s.withSecrets x).j0 = x.j0 := rfl
@[simp] theorem withSecrets_cb (s x : State) : (s.withSecrets x).cb = x.cb := rfl
@[simp] theorem withSecrets_yreg (s x : State) : (s.withSecrets x).yreg = x.yreg := rfl
@[simp] theorem withSecrets_ekj0 (s x : State) : (s.withSecrets x).ekj0 = x.ekj0 := rfl
@[simp] theorem withSecrets_tagc (s x : State) : (s.withSecrets x).tagc = x.tagc := rfl
@[simp] theorem withSecrets_params (s x : State) : (s.withSecrets x).params = s.params := rfl
@[simp] theorem withSecrets_rbpRequests (s x : State) : (s.withSecrets x).rbpRequests = s.rbpRequests := rfl
@[simp] theorem withSecrets_bus (s x : State) : (s.withSecrets x).bus = s.bus := rfl
@[simp] theorem withSecrets_result (s x : State) : (s.withSecrets x).result = s.result := rfl
@[simp] theorem withSecrets_events (s x : State) : (s.withSecrets x).events = s.events := rfl

end Sys2Proof.Machine
end

