-- ==== Sys2Proof/Laws/Engine.lean ====
section
/-! SUPPORT. The operations on the scratch registers compute the functions of Aes.lean and Gcm.lean, and what a turn of the
Engine and of the RBP can do, said once. -/

namespace Sys2Proof.Machine

/-- The rounds read the round keys `rk r` to `rk (r + n - 1)` only. -/
theorem cipherRounds_congr {rk rk' : Nat → Block} (n r : Nat) (h : ∀ i, r ≤ i → i < r + n → rk i = rk' i) (s : Block) :
    cipherRounds rk n r s = cipherRounds rk' n r s := by
  induction n generalizing r s with
  | zero => rfl
  | succ n ih =>
    rw [cipherRounds, cipherRounds, h r (by omega) (by omega), ih (r + 1) fun i h1 h2 => h i (by omega) (by omega)]

/-- A cipher with `nr` rounds reads the round keys 0 to `nr` only (R102). -/
theorem cipher_congr {rk rk' : Nat → Block} {nr : Nat} (h : ∀ i, i ≤ nr → rk i = rk' i) (b : Block) :
    cipher nr rk b = cipher nr rk' b := by
  unfold cipher
  rw [h 0 (by omega), h nr (by omega), cipherRounds_congr _ _ fun i _ _ => h i (by omega)]

/-- The round keys that `AES.KEYEXP` leaves (R101). -/
theorem opKeyexp_roundKey (s : State) {r : Nat} (h : r < 15) :
    (opKeyexp s).roundKey r = if r ≤ (if s.keylen = 16 then 10 else 14) then s.expandedKey r else s.roundKey r := by
  have hr : ((if s.keylen = 16 then 10 else 14 : BitVec 4)).toNat = if s.keylen = 16 then 10 else 14 := by
    split <;> rfl
  conv_lhs => unfold State.roundKey
  rw [dif_pos h]
  unfold opKeyexp
  simp only [hr]
  interval_cases r <;> rfl

theorem keyBytes_length {s : State} (h : s.keylen = 16 ∨ s.keylen = 32) : s.keyBytes.length = s.keylen.toNat := by
  rcases h with h | h <;> simp [State.keyBytes, h]

/-- After `AES.KEYEXP` on a key of 16 or 32 bytes the cipher is the one under that key (R101, R102). -/
theorem opKeyexp_ciph {s : State} (h : s.keylen = 16 ∨ s.keylen = 32) : (opKeyexp s).ciph = cipherUnder s.keyBytes := by
  funext b
  have hk : keyRounds s.keyBytes = if s.keylen = 16 then 10 else 14 := by
    rw [keyRounds, keyBytes_length h]
    rcases h with h | h <;> simp [h]
  have hn : (opKeyexp s).nr.toNat = if s.keylen = 16 then 10 else 14 := by
    unfold opKeyexp
    dsimp only
    split <;> rfl
  unfold State.ciph cipherUnder
  rw [hn, hk]
  apply cipher_congr
  intro i hi
  have hi' : i < 15 := by split at hi <;> omega
  rw [opKeyexp_roundKey s hi', if_pos hi, State.expandedKey, if_pos h]

@[simp] theorem opCipher_ciph (b : Block) (s : State) : (opCipher b s).ciph = s.ciph := rfl
@[simp] theorem opInit_ciph (n : Nonce) (s : State) : (opInit n s).ciph = s.ciph := rfl
@[simp] theorem opGctr_ciph (b : Block) (x : List Byte) (s : State) : (opGctr b x s).ciph = s.ciph := rfl
@[simp] theorem opGhash_ciph (c : List Byte) (s : State) : (opGhash c s).ciph = s.ciph := rfl
@[simp] theorem opTag_ciph (h : Block) (s : State) : (opTag h s).ciph = s.ciph := rfl

/-- `GCM_AE` on the registers returns what the function returns (R122). -/
theorem opGcmAe_fst (n : Nonce) (p : List Byte) (s : State) : (opGcmAe n p s).1 = gcmAe s.ciph n p := rfl

/-- `GCM_AD` on the registers returns what the function returns (R123). -/
theorem opGcmAd_fst (n : Nonce) (ct : List Byte) (s : State) : (opGcmAd n ct s).1 = gcmAd s.ciph n ct := by
  have ht : (opTag (opGhash (ct.take (ct.length - 16)) (opInit n s)).yreg
      (opGhash (ct.take (ct.length - 16)) (opInit n s))).tagc =
      gcmTagOf s.ciph (preCounter n) (ghash (s.ciph 0) (ct.take (ct.length - 16))) := by
    simp only [opTag, opGhash, opInit, opCipher, gcmTagOf]
    rfl
  unfold opGcmAd gcmAd
  dsimp only
  rw [ht]
  cases tagEq (ofBytes (ct.drop (ct.length - 16)))
    (gcmTagOf s.ciph (preCounter n) (ghash (s.ciph 0) (ct.take (ct.length - 16))))
  · simp
  · simp only [if_true, State.gctrOut, opTag_ciph, opGhash_ciph, opInit_ciph, opTag_j0, opGhash_j0, opInit_j0]

@[simp] theorem zeroise_opKeyexp (s : State) : zeroise (opKeyexp s) = zeroise s := rfl
@[simp] theorem zeroise_opInit (n : Nonce) (s : State) : zeroise (opInit n s) = zeroise s := rfl
@[simp] theorem zeroise_opGctr (b : Block) (x : List Byte) (s : State) : zeroise (opGctr b x s) = zeroise s := rfl
@[simp] theorem zeroise_opGhash (c : List Byte) (s : State) : zeroise (opGhash c s) = zeroise s := rfl
@[simp] theorem zeroise_opTag (h : Block) (s : State) : zeroise (opTag h s) = zeroise s := rfl

/-- `GCM_AE` writes scratch registers only. -/
theorem zeroise_opGcmAe (n : Nonce) (p : List Byte) (s : State) : zeroise (opGcmAe n p s).2 = zeroise s := by
  unfold opGcmAe
  simp only [zeroise_opTag, zeroise_opGhash, zeroise_opGctr, zeroise_opInit]

/-- `GCM_AD` writes scratch registers only. -/
theorem zeroise_opGcmAd (n : Nonce) (ct : List Byte) (s : State) : zeroise (opGcmAd n ct s).2 = zeroise s := by
  unfold opGcmAd
  dsimp only
  split <;> simp only [zeroise_opTag, zeroise_opGhash, zeroise_opGctr, zeroise_opInit]

/-- The success commit of a `SEAL` in terms of the state at the turn (R141). -/
theorem sealWith_eq {s : State} (h : s.keylen = 16 ∨ s.keylen = 32) (n : Nonce) :
    sealWith n s = commitSeal n (gcmAe (cipherUnder s.keyBytes) n s.message) s := by
  unfold sealWith
  simp only [opGcmAe_fst, opKeyexp_ciph h]
  simp only [commitSeal, commitResult, zeroise_opGcmAe, zeroise_opKeyexp]

theorem badKeyLength_false {s : State} (h : s.badKeyLength = false) : s.keylen = 16 ∨ s.keylen = 32 := by
  simp only [State.badKeyLength, Bool.and_eq_false_iff, decide_eq_false_iff_not, ne_eq, not_not] at h
  exact h

theorem sealCheck_none {s : State} (h : sealCheck s = none) :
    (s.keylen = 16 ∨ s.keylen = 32) ∧ s.ilen.toNat ≤ s.params.bufBytes - 16 := by
  unfold sealCheck at h
  cases hb : s.badKeyLength
  · rw [hb] at h
    refine ⟨badKeyLength_false hb, ?_⟩
    by_contra hc
    rw [if_neg (by simp), if_pos (by omega)] at h
    exact absurd h (by simp)
  · rw [hb] at h; simp at h

theorem openCheck_none {s : State} (h : openCheck s = none) :
    (s.keylen = 16 ∨ s.keylen = 32) ∧ s.noncelen = 12 ∧ 16 ≤ s.ilen.toNat ∧ s.ilen.toNat ≤ s.params.bufBytes := by
  unfold openCheck at h
  cases hb : s.badKeyLength
  · rw [hb] at h
    refine ⟨badKeyLength_false hb, ?_⟩
    rw [if_neg (by simp)] at h
    split at h <;> rename_i h1
    · simp at h
    · split at h <;> rename_i h2
      · simp at h
      · split at h <;> rename_i h3
        · simp at h
        · exact ⟨by simpa using h1, by omega, by omega⟩
  · rw [hb] at h; simp at h

/-- What `Complete` of a `SEAL` does, and that it is not enabled before the answer (R135, R141). -/
theorem completeSeal_cases (s : State) :
    (∃ e, sealCheck s = some e ∧ completeSeal s = raiseError e s) ∨
    (sealCheck s = none ∧ (∀ a, s.rbpReq ≠ .answered a) ∧ completeSeal s = s) ∨
    (sealCheck s = none ∧ s.rbpReq = .answered .fail ∧ completeSeal s = raiseError .randomnessFailure s) ∨
    (∃ n, sealCheck s = none ∧ s.rbpReq = .answered (.ok n) ∧
      completeSeal s = commitSeal n (gcmAe (cipherUnder s.keyBytes) n s.message) s) := by
  unfold completeSeal
  cases hc : sealCheck s with
  | some e => exact Or.inl ⟨e, rfl, rfl⟩
  | none =>
    cases hr : s.rbpReq with
    | idle => simp
    | waiting k => simp
    | answered a =>
      cases a with
      | fail => simp
      | ok n => simp [sealWith_eq (sealCheck_none hc).1]

/-- What `Complete` of an `OPEN` does (R151). -/
theorem completeOpen_cases (s : State) :
    (∃ e, openCheck s = some e ∧ completeOpen s = raiseError e s) ∨
    (openCheck s = none ∧ gcmAd (cipherUnder s.keyBytes) s.nonce s.message = none ∧
      completeOpen s = raiseError .authenticationFailure s) ∨
    (∃ p, openCheck s = none ∧ gcmAd (cipherUnder s.keyBytes) s.nonce s.message = some p ∧
      completeOpen s = commitResult p s) := by
  unfold completeOpen
  cases hc : openCheck s with
  | some e => exact Or.inl ⟨e, rfl, rfl⟩
  | none =>
    simp only [opGcmAd_fst, opKeyexp_ciph (openCheck_none hc).1, raiseError, commitResult, zeroise_opGcmAd,
      zeroise_opKeyexp]
    cases hg : gcmAd (cipherUnder s.keyBytes) s.nonce s.message with
    | none => simp
    | some p => simp

/-- What a turn of the Engine does (R10). -/
theorem engineTurn_cases (s : State) :
    (s.phase = .busy ∧ s.runcmd = .sealing ∧ engineTurn s = completeSeal s) ∨
    (s.phase = .busy ∧ s.runcmd = .opening ∧ engineTurn s = completeOpen s) ∨
    ((s.phase ≠ .busy ∨ s.runcmd = .none) ∧ engineTurn s = s) := by
  unfold engineTurn
  by_cases h : s.phase = .busy
  · rw [if_pos h]
    cases hr : s.runcmd <;> simp [h]
  · simp [h]

/-- When the request to the RBP is pending (R36). -/
theorem drawPending_iff (s : State) :
    s.drawPending = true ↔ s.phase = .busy ∧ s.runcmd = .sealing ∧ sealCheck s = none := by
  simp [State.drawPending, and_assoc]

/-- What the RBP's receipt of a request does (R131). -/
theorem requestTurn_cases (s : State) :
    (s.drawPending = true ∧ s.rbpReq = .idle ∧ requestTurn s = issueRequest s) ∨
    ((s.drawPending = false ∨ s.rbpReq ≠ .idle) ∧ requestTurn s = s) := by
  cases hp : s.drawPending <;> by_cases h : s.rbpReq = .idle <;> simp [requestTurn, hp, h]

/-- What an answer of the RBP does (R131, R239). -/
theorem rbpTurn_cases (draw : Answer) (s : State) :
    (s.drawPending = true ∧ s.rbpReq = .idle ∧
      rbpTurn draw s = { s with
        rbpReq := .answered (providerAnswer s.params.rbp s.rbpRequests draw), rbpRequests := s.rbpRequests + 1 }) ∨
    (∃ k, s.rbpReq = .waiting k ∧
      rbpTurn draw s = { s with rbpReq := .answered (providerAnswer s.params.rbp k draw) }) ∨
    (((s.drawPending = false ∧ s.rbpReq = .idle) ∨ ∃ a, s.rbpReq = .answered a) ∧ rbpTurn draw s = s) := by
  rcases requestTurn_cases s with ⟨hp, hi, h⟩ | ⟨hn, h⟩
  · exact Or.inl ⟨hp, hi, by rw [rbpTurn, h]; rfl⟩
  · refine Or.inr ?_
    cases hr : s.rbpReq with
    | idle =>
      refine Or.inr ⟨Or.inl ⟨hn.resolve_right (fun hc => hc hr), rfl⟩, ?_⟩
      rw [rbpTurn, h]; simp only [hr]
    | waiting k =>
      refine Or.inl ⟨k, rfl, ?_⟩
      rw [rbpTurn, h]; simp only [hr]
    | answered a =>
      refine Or.inr ⟨Or.inr ⟨a, rfl⟩, ?_⟩
      rw [rbpTurn, h]; simp only [hr]

/-- The output of `GCM.GCTR` is as long as its input (R116). -/
theorem gctrLoop_length (ciph : Block → Block) (n : Nat) (cb : Block) (x : List Byte) (h : x.length ≤ 16 * n) :
    (gctrLoop ciph n cb x).length = x.length := by
  induction n generalizing cb x with
  | zero => simp at h; simp [gctrLoop, h]
  | succ n ih =>
    rw [gctrLoop, List.length_append, ih _ _ (by simp; omega)]
    simp
    omega

theorem blockCount_bound (n : Nat) : n ≤ 16 * blockCount n := by
  unfold blockCount
  omega

end Sys2Proof.Machine
end

