-- ==== Sys2Proof/Laws/Ops.lean ====
section
/-! SUPPORT. What each shared operation over the registers can do, said once. -/

namespace Sys2Proof.Machine

theorem pushKey_idle {v : Byte} {s : State} (h : s.phase = .idle) :
    pushKey v s =
      { s with
        key := s.key.setIfInBounds s.keylen.toNat v
        keylen := BitVec.ofNat 32 (min (s.keylen.toNat + 1) 33)
        bus := .okWrite } := by
  simp [pushKey, h]

theorem pushNonce_idle {v : Byte} {s : State} (h : s.phase = .idle) :
    pushNonce v s =
      { s with
        nonce := s.nonce.setIfInBounds s.noncelen.toNat v
        noncelen := BitVec.ofNat 32 (min (s.noncelen.toNat + 1) 13)
        bus := .okWrite } := by
  simp [pushNonce, h]

theorem pushData_idle {v : Byte} {s : State} (h : s.phase = .idle) :
    pushData v s =
      { s with
        ibuf := if s.ilen.toNat < s.params.bufBytes then s.ibuf ++ [v] else s.ibuf
        ilen := BitVec.ofNat 32 (min (s.ilen.toNat + 1) (s.params.bufBytes + 1))
        bus := .okWrite } := by
  simp [pushData, h]

/-- A push outside `IDLE` is ignored (R167). -/
theorem push_ignored {v : Byte} {s : State} (h : s.phase ≠ .idle) :
    pushKey v s = ignoreWrite s ∧ pushNonce v s = ignoreWrite s ∧ pushData v s = ignoreWrite s := by
  simp [pushKey, pushNonce, pushData, h]

theorem popData_some {s : State} (h : s.optr < s.olen.toNat) :
    popData s = { s with optr := s.optr + 1, bus := .ok8 (s.obuf.getD s.optr 0x00) } := by
  simp [popData, h]

theorem popData_empty {s : State} (h : ¬ s.optr < s.olen.toNat) :
    popData s = { s with proto := true, bus := .ok8 0x00 } := by
  simp [popData, h]

/-- A legal read answers, and changes nothing else unless it is the pop of `DOUT` (R56). -/
theorem memRead_cases (r : Reg) (s : State) :
    (∃ b, memRead r s = s.respond b) ∨ r = .dout ∧ memRead r s = popData s := by
  cases r <;> first | exact Or.inr ⟨rfl, rfl⟩ | exact Or.inl ⟨_, rfl⟩

/-- A write of `SEAL` or `OPEN` is accepted in `IDLE` or ignored (R140, R150, R167). -/
theorem startCommand_cases (c : RunCmd) (s : State) :
    (s.phase = .idle ∧ startCommand c s = { s with phase := .busy, runcmd := c, bus := .okWrite }) ∨
    (s.phase ≠ .idle ∧ startCommand c s = ignoreWrite s) := by
  by_cases h : s.phase = .idle <;> simp [startCommand, h]

/-- `CLEAR` is ignored in `BUSY` and otherwise clears everything that it clears (R160). -/
theorem clearCore_cases (s : State) :
    (s.phase = .busy ∧ clearCore s = ignoreWrite s) ∨
    (s.phase ≠ .busy ∧
      clearCore s =
        { s with
          key := Vector.replicate 32 0, keylen := 0, nonce := Vector.replicate 12 0, noncelen := 0
          ibuf := [], ilen := 0, obuf := [], olen := 0, optr := 0, err := .none, proto := false, phase := .idle
          bus := .okWrite }) := by
  by_cases h : s.phase = .busy <;> simp [clearCore, h]

/-- A write of `CMD` is one of the three commands or is ignored (R73, R74). -/
theorem writeCommand_cases (v : Word) (s : State) :
    (v = 1 ∧ writeCommand v s = startCommand .sealing s) ∨ (v = 2 ∧ writeCommand v s = startCommand .opening s) ∨
    (v = 3 ∧ writeCommand v s = clearCore s) ∨ (v ≠ 1 ∧ v ≠ 2 ∧ v ≠ 3 ∧ writeCommand v s = ignoreWrite s) := by
  unfold writeCommand
  split
  · simp_all
  · split
    · simp_all
    · split <;> simp_all

/-- The fields of a state: two states that agree in each are equal. -/
theorem state_ext {s t : State}
    (h1 : s.ie = t.ie ∧ s.phase = t.phase ∧ s.proto = t.proto ∧ s.err = t.err)
    (h2 : s.key = t.key ∧ s.keylen = t.keylen ∧ s.nonce = t.nonce ∧ s.noncelen = t.noncelen)
    (h3 : s.ibuf = t.ibuf ∧ s.ilen = t.ilen ∧ s.obuf = t.obuf ∧ s.olen = t.olen ∧ s.optr = t.optr)
    (h4 : s.runcmd = t.runcmd ∧ s.rbpReq = t.rbpReq)
    (h5 : s.rk = t.rk ∧ s.nr = t.nr ∧ s.sreg = t.sreg ∧ s.hreg = t.hreg ∧ s.j0 = t.j0 ∧ s.cb = t.cb)
    (h6 : s.yreg = t.yreg ∧ s.ekj0 = t.ekj0 ∧ s.tagc = t.tagc)
    (h7 : s.params = t.params ∧ s.rbpRequests = t.rbpRequests ∧ s.bus = t.bus ∧ s.result = t.result ∧
      s.events = t.events) : s = t := by
  cases s; cases t
  simp only [State.mk.injEq] at *
  tauto

end Sys2Proof.Machine
end

