-- ==== Sys2Proof/Laws/PerInstr.lean ====
section
/-! SUPPORT. The family `EncodingKind`, one lemma per instruction. -/

/-- An instruction has no encoding exactly when it is an internal operation (R82). -/
def Sys2Proof.Laws.EncodingKind.Statement (i : Sys2Proof.Instr) : Prop :=
  (Sys2Proof.encode i).isNone = i.internal

namespace Sys2Proof.Laws.EncodingKind

theorem sealCmd : Statement .sealCmd := rfl
theorem openCmd : Statement .openCmd := rfl
theorem clearCmd : Statement .clearCmd := rfl
theorem rd32Ctrl : Statement .rd32Ctrl := rfl
theorem wr32Ctrl (data : Word) : Statement (.wr32Ctrl data) := rfl
theorem rd32Status : Statement .rd32Status := rfl
theorem wr32Status (data : Word) : Statement (.wr32Status data) := rfl
theorem rd32Cmd : Statement .rd32Cmd := rfl
theorem wr32Cmd (data : Word) : Statement (.wr32Cmd data) := rfl
theorem rd32Keylen : Statement .rd32Keylen := rfl
theorem wr32Keylen (data : Word) : Statement (.wr32Keylen data) := rfl
theorem rd32Noncelen : Statement .rd32Noncelen := rfl
theorem wr32Noncelen (data : Word) : Statement (.wr32Noncelen data) := rfl
theorem rd32Ilen : Statement .rd32Ilen := rfl
theorem wr32Ilen (data : Word) : Statement (.wr32Ilen data) := rfl
theorem rd32Olen : Statement .rd32Olen := rfl
theorem wr32Olen (data : Word) : Statement (.wr32Olen data) := rfl
theorem rd8Keyin : Statement .rd8Keyin := rfl
theorem wr8Keyin (data : Byte) : Statement (.wr8Keyin data) := rfl
theorem rd8Noncein : Statement .rd8Noncein := rfl
theorem wr8Noncein (data : Byte) : Statement (.wr8Noncein data) := rfl
theorem rd8Din : Statement .rd8Din := rfl
theorem wr8Din (data : Byte) : Statement (.wr8Din data) := rfl
theorem rd8Dout : Statement .rd8Dout := rfl
theorem wr8Dout (data : Byte) : Statement (.wr8Dout data) := rfl
theorem rd8Nonce0 : Statement .rd8Nonce0 := rfl
theorem wr8Nonce0 (data : Byte) : Statement (.wr8Nonce0 data) := rfl
theorem rd8Nonce1 : Statement .rd8Nonce1 := rfl
theorem wr8Nonce1 (data : Byte) : Statement (.wr8Nonce1 data) := rfl
theorem rd8Nonce2 : Statement .rd8Nonce2 := rfl
theorem wr8Nonce2 (data : Byte) : Statement (.wr8Nonce2 data) := rfl
theorem rd8Nonce3 : Statement .rd8Nonce3 := rfl
theorem wr8Nonce3 (data : Byte) : Statement (.wr8Nonce3 data) := rfl
theorem rd8Nonce4 : Statement .rd8Nonce4 := rfl
theorem wr8Nonce4 (data : Byte) : Statement (.wr8Nonce4 data) := rfl
theorem rd8Nonce5 : Statement .rd8Nonce5 := rfl
theorem wr8Nonce5 (data : Byte) : Statement (.wr8Nonce5 data) := rfl
theorem rd8Nonce6 : Statement .rd8Nonce6 := rfl
theorem wr8Nonce6 (data : Byte) : Statement (.wr8Nonce6 data) := rfl
theorem rd8Nonce7 : Statement .rd8Nonce7 := rfl
theorem wr8Nonce7 (data : Byte) : Statement (.wr8Nonce7 data) := rfl
theorem rd8Nonce8 : Statement .rd8Nonce8 := rfl
theorem wr8Nonce8 (data : Byte) : Statement (.wr8Nonce8 data) := rfl
theorem rd8Nonce9 : Statement .rd8Nonce9 := rfl
theorem wr8Nonce9 (data : Byte) : Statement (.wr8Nonce9 data) := rfl
theorem rd8Nonce10 : Statement .rd8Nonce10 := rfl
theorem wr8Nonce10 (data : Byte) : Statement (.wr8Nonce10 data) := rfl
theorem rd8Nonce11 : Statement .rd8Nonce11 := rfl
theorem wr8Nonce11 (data : Byte) : Statement (.wr8Nonce11 data) := rfl
theorem aesKeyexp : Statement .aesKeyexp := rfl
theorem aesCipher (input : Block) : Statement (.aesCipher input) := rfl
theorem gcmGfmul (x y : Block) : Statement (.gcmGfmul x y) := rfl
theorem gcmInc32 (b : Block) : Statement (.gcmInc32 b) := rfl
theorem gcmGhash (c : List Byte) : Statement (.gcmGhash c) := rfl
theorem gcmGctr (icb : Block) (x : List Byte) : Statement (.gcmGctr icb x) := rfl
theorem gcmInit (nonce : Nonce) : Statement (.gcmInit nonce) := rfl
theorem gcmTag (hash : Block) : Statement (.gcmTag hash) := rfl
theorem gcmTageq (t : Block) : Statement (.gcmTageq t) := rfl
theorem ngenDraw : Statement .ngenDraw := rfl

end Sys2Proof.Laws.EncodingKind
end

