-- ==== Sys2Proof/Laws/Step.lean ====
section
/-! SUPPORT. What one step can do, said once. -/

namespace Sys2Proof.Machine

/-- What a host instruction does, as one of ten shapes: a read without side effect, the pop, the write of `CTRL`, the three
pushes, the three commands, an ignored write (R56, R57). -/
inductive HostEffect (i : Instr) (s : State) : State → Prop where
  | read (b : BusResponse) (hc : i.command = none) (hi : i.ignored s.phase = false) (hd : i ≠ .rd8Dout)
      (hw : ∀ v, i ≠ .wr32Ctrl v) : HostEffect i s (s.respond b)
  | pop (h : i = .rd8Dout) : HostEffect i s (popData s)
  | ctrl (v : Word) (h : i = .wr32Ctrl v) : HostEffect i s (writeCtrl v s)
  | keyin (v : Byte) (h : i = .wr8Keyin v) : HostEffect i s (pushKey v s)
  | noncein (v : Byte) (h : i = .wr8Noncein v) : HostEffect i s (pushNonce v s)
  | din (v : Byte) (h : i = .wr8Din v) : HostEffect i s (pushData v s)
  | start (h : i.command = some .sealCmd) : HostEffect i s (startCommand .sealing s)
  | startOpen (h : i.command = some .openCmd) : HostEffect i s (startCommand .opening s)
  | clear (h : i.command = some .clearCmd) : HostEffect i s (clearCore s)
  | ignore (hc : i.command = none) (hi : ∀ ph, i.ignored ph = true) (hd : i ≠ .rd8Dout) (hw : ∀ v, i ≠ .wr32Ctrl v) :
      HostEffect i s (ignoreWrite s)

theorem writeCommand_hostEffect (v : Word) (s : State) : HostEffect (.wr32Cmd v) s (writeCommand v s) := by
  rcases writeCommand_cases v s with ⟨rfl, h⟩ | ⟨rfl, h⟩ | ⟨rfl, h⟩ | ⟨h1, h2, h3, h⟩ <;> rw [h]
  · exact .start rfl
  · exact .startOpen rfl
  · exact .clear rfl
  · exact .ignore (by simp only [Instr.command, if_neg h1, if_neg h2, if_neg h3])
      (by intro ph; simp only [Instr.ignored, if_neg h3, h1, h2, or_self, if_false])
      (by simp) (by simp)

/-- Every host instruction has a next state, of one of the shapes of `HostEffect`. -/
theorem exec_host {i : Instr} (h : i.internal = false) (s : State) : ∃ t, exec i s = .next t ∧ HostEffect i s t := by
  cases i <;> first
    | (simp [Instr.internal] at h; done)
    | exact ⟨_, rfl, .read _ rfl rfl (by simp) (by simp)⟩
    | exact ⟨_, rfl, .pop rfl⟩
    | exact ⟨_, rfl, .ctrl _ rfl⟩
    | exact ⟨_, rfl, .keyin _ rfl⟩
    | exact ⟨_, rfl, .noncein _ rfl⟩
    | exact ⟨_, rfl, .din _ rfl⟩
    | exact ⟨_, rfl, .start rfl⟩
    | exact ⟨_, rfl, .startOpen rfl⟩
    | exact ⟨_, rfl, .clear rfl⟩
    | exact ⟨_, rfl, writeCommand_hostEffect _ s⟩
    | exact ⟨_, rfl, .ignore rfl (fun _ => rfl) (by simp) (by simp)⟩

theorem step_nil {s : State} (h : s.events = []) : step s = .next s := by
  simp [step, runNext, h]

theorem step_cons {s : State} {e : Event} {l : List Event} (h : s.events = e :: l) :
    step s = runEvent e { s with events := l } := by
  simp [step, runNext, h]

/-- Every way in which running a decoded word ends. -/
theorem runDecoded_cases (d : Except DecodeError Instr) (s : State) :
    (∃ i, d = .ok i ∧ runDecoded d s = exec i s) ∨
    (d = .error .illegalAccess ∧ runDecoded d s = .next (busError s)) ∨
    (d = .error .reservedCommand ∧ runDecoded d s = .next (ignoreWrite s)) ∨
    (∃ e, d = .error e ∧ e ≠ .illegalAccess ∧ e ≠ .reservedCommand ∧ runDecoded d s = .refused .malformedWord) := by
  cases d with
  | ok i => exact Or.inl ⟨i, rfl, rfl⟩
  | error e => cases e <;> simp [runDecoded]

/-- Every event but a reset needs a state that holds no value of U8. -/
theorem runEvent_held {e : Event} {s : State} (h : s.held = true) :
    runEvent e s =
      match e with
      | .reset => .next (resetCore s)
      | .word w => runDecoded (decode w) s
      | .busAccess wr size addr data => runBusAccess wr size addr data s
      | .turn t => .next (takeTurn s t) := by
  cases e <;> simp [runEvent, h]

/-- Every way in which an event has a next state. -/
theorem runEvent_next {e : Event} {s t : State} (h : runEvent e s = .next t) :
    (e = .reset ∧ t = resetCore s) ∨
    (s.held = true ∧
      ((∃ w, e = .word w ∧ runDecoded (decode w) s = .next t) ∨
       (∃ wr size addr data, e = .busAccess wr size addr data ∧ runBusAccess wr size addr data s = .next t) ∨
       (∃ u, e = .turn u ∧ t = takeTurn s u))) := by
  cases hs : s.held
  · cases e <;> simp [runEvent, hs] at h ⊢
    exact h.symm
  · rw [runEvent_held hs] at h
    cases e with
    | reset => simp at h; exact Or.inl ⟨rfl, h.symm⟩
    | word w => exact Or.inr ⟨rfl, Or.inl ⟨w, rfl, h⟩⟩
    | busAccess wr size addr data => exact Or.inr ⟨rfl, Or.inr (Or.inl ⟨wr, size, addr, data, rfl, h⟩)⟩
    | turn u => simp at h; exact Or.inr ⟨rfl, Or.inr (Or.inr ⟨u, rfl, h.symm⟩)⟩

/-- Every way in which a step has a next state. -/
theorem step_next {s t : State} (h : step s = .next t) :
    (s.events = [] ∧ t = s) ∨
    (∃ e l, s.events = e :: l ∧ runEvent e { s with events := l } = .next t) := by
  cases he : s.events with
  | nil => rw [step_nil he] at h; simp at h; exact Or.inl ⟨rfl, h.symm⟩
  | cons e l => rw [step_cons he] at h; exact Or.inr ⟨e, l, rfl, h⟩

/-- No step raises a fault: the type has no constructor. -/
theorem step_no_fault (s : State) (f : Fault) : step s ≠ .fault f := nomatch f

end Sys2Proof.Machine
end

