-- ==== Sys2Proof/Laws/Wrapper.lean ====
section
/-! SUPPORT. Turns between the transactions of a driver, and what the two ways of waiting can answer, said once. -/

namespace Sys2Proof.Machine

@[simp] theorem takeTurns_nil (s : State) : takeTurns [] s = s := rfl

@[simp] theorem takeTurns_cons (t : Turn) (l : List Turn) (s : State) :
    takeTurns (t :: l) s = takeTurns l (takeTurn s t) := rfl

@[simp] theorem takeTurns_append (k l : List Turn) (s : State) :
    takeTurns (k ++ l) s = takeTurns l (takeTurns k s) := List.foldl_append

@[simp] theorem transact_rd32Status (s : State) : transact .rd32Status s = { s with bus := .ok32 s.status } := rfl

/-- The last value `WAITDONE` reads is `STATUS` after the turns before it, with `PHASE` = `DONE` (R80). -/
theorem waitDone_some {sched : List (List Turn)} {s : State} {w : Word × State} (h : waitDone sched s = some w) :
    w.1.extractLsb' 0 2 = 2 ∧ w.1 = w.2.status ∧ w.2.bus = .ok32 w.1 := by
  induction sched generalizing s with
  | nil => cases h
  | cons turns rest ih =>
    unfold waitDone at h
    split at h
    · rename_i hd
      cases h
      exact ⟨hd, rfl, rfl⟩
    · exact ih h

/-- Waiting for `irq` ends with `irq` = 1, and no turn later than needed (R184). -/
theorem waitIrq_some {l : List Turn} {s t : State} (h : waitIrq l s = some t) :
    t.irq = true ∧ ∃ k m, l = k ++ m ∧ t = takeTurns k s := by
  induction l generalizing s with
  | nil =>
    unfold waitIrq at h
    split at h
    · cases h
      exact ⟨‹_›, [], [], rfl, rfl⟩
    · cases h
  | cons u rest ih =>
    unfold waitIrq at h
    split at h
    · cases h
      exact ⟨‹_›, [], u :: rest, rfl, rfl⟩
    · obtain ⟨hi, k, m, rfl, rfl⟩ := ih h
      exact ⟨hi, u :: k, m, rfl, rfl⟩

end Sys2Proof.Machine
end

