-- ==== Sys2Proof/Tests/Slice0.lean ====
section
/-! SUPPORT. Small tests: the checks of WellFormed, the decoder on words written out from 30_encoding.md, vectors of
95_test_vectors.md and of the rules, single steps, and for every statement with hypotheses a case that meets them. -/

set_option Elab.async false

namespace Sys2Proof.Tests

open Sys2Proof Sys2Proof.Machine

/-! ## Well-formedness -/

/-- `BUF_BYTES` = 16, the least of R9. -/
def params16 : Params := ⟨0, 1, .production⟩

/-- `BUF_BYTES` = 64, as in 95_test_vectors.md. -/
def params64 : Params := ⟨48, 1, .production⟩

/-- R115: more than `BUF_BYTES` bytes are no operand of `GCM.GHASH`. -/
theorem test_wellFormed_ghash :
    (Instr.gcmGhash (List.replicate 16 0)).wellFormed params16 = true ∧
    (Instr.gcmGhash (List.replicate 17 0)).wellFormed params16 = false := by decide

/-- R116: more than `BUF_BYTES` bytes are no operand of `GCM.GCTR`. -/
theorem test_wellFormed_gctr :
    (Instr.gcmGctr 0 (List.replicate 16 0)).wellFormed params16 = true ∧
    (Instr.gcmGctr 0 (List.replicate 17 0)).wellFormed params16 = false := by decide

/-! ## Decoding -/

/-- R73, R74: the command words; 0, 4, and a word with a bit of 31:8 set are reserved. -/
theorem test_decode_commands :
    decode (.command 1) = .ok .sealCmd ∧ decode (.command 2) = .ok .openCmd ∧ decode (.command 3) = .ok .clearCmd ∧
    decode (.command 0) = .error .reservedCommand ∧ decode (.command 4) = .error .reservedCommand ∧
    decode (.command 0x101) = .error .reservedCommand := by decide

/-- R53, R71, R72: the words of the 32-bit registers, written out from the fields. -/
theorem test_decode_registers32 :
    ∀ p ∈ ([
     (0x4000000000000000, .rd32Ctrl),
     (0x4000000400000000, .rd32Status),
     (0x4000000800000000, .rd32Cmd),
     (0x4000000C00000000, .rd32Keylen),
     (0x4000001000000000, .rd32Noncelen),
     (0x4000001400000000, .rd32Ilen),
     (0x4000001800000000, .rd32Olen),
     (0xC0000000DEADBEEF, (.wr32Ctrl 0xDEADBEEF)),
     (0xC0000004DEADBEEF, (.wr32Status 0xDEADBEEF)),
     (0xC0000008DEADBEEF, (.wr32Cmd 0xDEADBEEF)),
     (0xC000000CDEADBEEF, (.wr32Keylen 0xDEADBEEF)),
     (0xC0000010DEADBEEF, (.wr32Noncelen 0xDEADBEEF)),
     (0xC0000014DEADBEEF, (.wr32Ilen 0xDEADBEEF)),
     (0xC0000018DEADBEEF, (.wr32Olen 0xDEADBEEF))] : List (BitVec 64 × Instr)),
      decode (.htw p.1) = .ok p.2 := by decide

/-- R53, R71, R72: the words of the four ports. -/
theorem test_decode_ports :
    ∀ p ∈ ([
     (0x0000002000000000, .rd8Keyin),
     (0x0000002100000000, .rd8Noncein),
     (0x0000002200000000, .rd8Din),
     (0x0000002300000000, .rd8Dout),
     (0x80000020000000A5, (.wr8Keyin 0xA5)),
     (0x80000021000000A5, (.wr8Noncein 0xA5)),
     (0x80000022000000A5, (.wr8Din 0xA5)),
     (0x80000023000000A5, (.wr8Dout 0xA5))] : List (BitVec 64 × Instr)),
      decode (.htw p.1) = .ok p.2 := by decide

/-- R53, R71, R72: the words of the twelve nonce bytes. -/
theorem test_decode_nonce_bytes :
    ∀ p ∈ ([
     (0x0000003000000000, .rd8Nonce0),
     (0x0000003100000000, .rd8Nonce1),
     (0x0000003200000000, .rd8Nonce2),
     (0x0000003300000000, .rd8Nonce3),
     (0x0000003400000000, .rd8Nonce4),
     (0x0000003500000000, .rd8Nonce5),
     (0x0000003600000000, .rd8Nonce6),
     (0x0000003700000000, .rd8Nonce7),
     (0x0000003800000000, .rd8Nonce8),
     (0x0000003900000000, .rd8Nonce9),
     (0x0000003A00000000, .rd8Nonce10),
     (0x0000003B00000000, .rd8Nonce11),
     (0x80000030000000C3, (.wr8Nonce0 0xC3)),
     (0x80000031000000C3, (.wr8Nonce1 0xC3)),
     (0x80000032000000C3, (.wr8Nonce2 0xC3)),
     (0x80000033000000C3, (.wr8Nonce3 0xC3)),
     (0x80000034000000C3, (.wr8Nonce4 0xC3)),
     (0x80000035000000C3, (.wr8Nonce5 0xC3)),
     (0x80000036000000C3, (.wr8Nonce6 0xC3)),
     (0x80000037000000C3, (.wr8Nonce7 0xC3)),
     (0x80000038000000C3, (.wr8Nonce8 0xC3)),
     (0x80000039000000C3, (.wr8Nonce9 0xC3)),
     (0x8000003A000000C3, (.wr8Nonce10 0xC3)),
     (0x8000003B000000C3, (.wr8Nonce11 0xC3))] : List (BitVec 64 × Instr)),
      decode (.htw p.1) = .ok p.2 := by decide

/-- R54, R72: a 16-bit access, a byte access to `STATUS`, a 4-byte access to a port, a misaligned and an unmapped access. -/
theorem test_decode_illegal :
    ∀ w ∈ ([0x2000000400000000, 0xA000002000000001, 0x0000000400000000, 0x4000002300000000, 0x4000000100000000,
      0x4000001C00000000, 0x0000002400000000, 0x0000003C00000000, 0x000000FF00000000] : List Nat),
      decode (.htw (BitVec.ofNat 64 w)) = .error .illegalAccess := by decide +kernel

/-- R71: `SZ` = 3, a bit of 60:40, a write wider than its size, a read with data. -/
theorem test_decode_malformed :
    decode (.htw 0x6000000400000000) = .error .reservedSize ∧
    decode (.htw 0x4000010400000000) = .error .nonzeroReserved ∧
    decode (.htw 0x8000002000000100) = .error .dataTooWide ∧
    decode (.htw 0xA000000000010000) = .error .dataTooWide ∧
    decode (.htw 0x4000000400000001) = .error .readWithData := by decide

/-- R78: 4 bytes are a command word, 8 a transaction word, any other number neither. -/
theorem test_decode_bytes :
    decodeBytes [3, 0, 0, 0] = .ok .clearCmd ∧ decodeBytes [0x41, 0, 0, 0, 0x20, 0, 0, 0x80] = .ok (.wr8Keyin 0x41) ∧
    decodeBytes [1, 0, 0] = .error .wrongLength := by decide +kernel

/-- The words of the opcode table, as numbers. -/
theorem test_decodeTableWord :
    decodeTableWord 32 2 = some .openCmd ∧ decodeTableWord 64 0xC000000800000001 = some (.wr32Cmd 1) ∧
    decodeTableWord 32 7 = none := by decide +kernel

/-- A table word runs as the first instruction after reset. -/
theorem test_withFetchWord :
    step (State.reset.withFetchWord 64 0x4000000400000000) = exec .rd32Status State.reset ∧
    step (State.reset.withFetchWord 32 1) = exec .sealCmd State.reset := ⟨rfl, rfl⟩

/-! ## Vectors -/

/-- R91, 95_test_vectors.md 2.1. -/
theorem test_gmul :
    xtime 0x57 = 0xae ∧ xtime 0x80 = 0x1b ∧ xtime 0xff = 0xe5 ∧ gmul 0x57 0x83 = 0xc1 ∧ gmul 0x57 0x13 = 0xfe ∧
    gmul 0x53 0xca = 0x01 := by decide +kernel

/-- R93, 95_test_vectors.md 2.1. -/
theorem test_sbox :
    sbox 0x00 = 0x63 ∧ sbox 0x10 = 0xca ∧ sbox 0x53 = 0xed ∧ sbox 0x63 = 0xfb ∧ sbox 0xc9 = 0xdd ∧ sbox 0xff = 0x16 := by
  decide +kernel

/-- R94, R95, R96: round 1 of the cipher example. -/
theorem test_round :
    subBytes 0x193de3bea0f4e22b9ac68d2ae9f84808 = 0xd42711aee0bf98f1b8b45de51e415230 ∧
    shiftRows 0xd42711aee0bf98f1b8b45de51e415230 = 0xd4bf5d30e0b452aeb84111f11e2798e5 ∧
    mixColumns 0xd4bf5d30e0b452aeb84111f11e2798e5 = 0x046681e5e0cb199a48f8d37a2806264c := by decide +kernel

/-- The 16-byte key of R100's first example. -/
def key128 : List Byte := toBytes 0x2b7e151628aed2a6abf7158809cf4f3c

/-- The 32-byte key of R100's third example. -/
def key256 : List Byte := toBytes 0x603deb1015ca71be2b73aef0857d7781 ++ toBytes 0x1f352c073b6108d72d9810a30914dff4

/-- R100: the worked round keys. -/
theorem test_roundKeys :
    roundKeyOf key128 1 = 0xa0fafe1788542cb123a339392a6c7605 ∧
    roundKeyOf key128 10 = 0xd014f9a8c9ee2589e13f0cc8b6630ca6 ∧
    roundKeyOf key256 2 = 0x9ba354118e6925afa51a8b5f2067fcde ∧
    roundKeyOf key256 14 = 0xfe4890d1e6188d0b046df344706c631e := by decide +kernel

/-- R102: the cipher example, and the zero block under the 32-byte zero key. -/
theorem test_cipher :
    cipherUnder key128 0x3243f6a8885a308d313198a2e0370734 = 0x3925841d02dc09fbdc118597196a0b32 ∧
    cipherUnder (List.replicate 32 0) 0 = 0xdc95c078a2408989ad48a21492842087 := by decide +kernel

/-- R111: `H` • `H`, x • `H`, and x • 1's last bit. -/
theorem test_gfmul :
    gfmul 0x66e94bd4ef8a2c3b884cfa59ca342b2e 0x66e94bd4ef8a2c3b884cfa59ca342b2e = 0xa569901bb4b18906f5059d24465c904d ∧
    gfmul 0x40000000000000000000000000000000 0x66e94bd4ef8a2c3b884cfa59ca342b2e = 0x3374a5ea77c5161dc4267d2ce51a1597 ∧
    gfmul 0x40000000000000000000000000000000 1 = gcmR := by decide +kernel

/-- R112: the counter carries inside its 4 bytes and wraps without a carry out of them. -/
theorem test_inc32 :
    inc32 0xaaaaaaaaaaaaaaaaaaaaaaaa000000ff = 0xaaaaaaaaaaaaaaaaaaaaaaaa00000100 ∧
    inc32 0x000000000000000000000000ffffffff = 0 := by decide +kernel

/-- R115: the example. -/
theorem test_ghash :
    ghash 0x66e94bd4ef8a2c3b884cfa59ca342b2e (toBytes 0x0388dace60b6a392f328c2b971b2fe78) =
      0xf38cbb1ad69223dcc3457ae5b6b0f885 := by decide +kernel

/-- R116: the example, and a short last chunk. -/
theorem test_gctr :
    gctr (cipherUnder (List.replicate 16 0)) 2 (List.replicate 16 0) = toBytes 0x0388dace60b6a392f328c2b971b2fe78 ∧
    gctr (cipherUnder (List.replicate 16 0)) 2 [0, 0, 0xff] = [0x03, 0x88, 0x25] := by decide +kernel

/-- R118: the pre-counter block. -/
theorem test_preCounter :
    preCounter #v[0, 1, 2, 3, 4, 5, 6, 7, 8, 9, 10, 11] = 0x000102030405060708090a0b00000001 := by decide +kernel

/-- R122: the example, 16-byte zero key, zero nonce, 16 zero bytes. -/
theorem test_gcmAe :
    gcmAe (cipherUnder (List.replicate 16 0)) (Vector.replicate 12 0) (List.replicate 16 0) =
      toBytes 0x0388dace60b6a392f328c2b971b2fe78 ++ toBytes 0xab6e47d42cec13bdf53a67b21257bddf := by decide +kernel

/-- R132, R136: the second answer of the example's counter, and past the end of a list. -/
theorem test_providers :
    providerAnswer (.detCounter #v[0, 1, 2, 3, 4, 5, 6, 7, 8, 9, 10, 11]) 1 .fail =
      .ok #v[0, 1, 2, 3, 4, 5, 6, 7, 8, 9, 10, 12] ∧
    providerAnswer (.detCounter (Vector.replicate 12 0xff)) 1 .fail = .ok (Vector.replicate 12 0) ∧
    providerAnswer (.detList []) 0 (.ok (Vector.replicate 12 0)) = .fail := by decide +kernel

/-- R181, R182: the examples. -/
theorem test_hex :
    hexEncode [0xDE, 0xAD] = ['d', 'e', 'a', 'd'] ∧ hexDecode ['0', 'C', '9', '1'] = .ok [0x0c, 0x91] ∧
    hexDecode ['0', 'c', '9'] = .error .decodeError ∧ hexDecode ['0', 'g'] = .error .decodeError ∧
    hexDecode ['0', 'x', '0', 'c'] = .error .decodeError := ⟨by decide, rfl, rfl, rfl, rfl⟩

/-! ## States -/

/-- `N0` of 95_test_vectors.md. -/
def n0 : Nonce := #v[0, 1, 2, 3, 4, 5, 6, 7, 8, 9, 10, 11]

/-- After reset, the pushes of `kl` key bytes, `nl` nonce bytes and `dl` input bytes, all 0x41. -/
def pushed (p : Params) (kl nl dl : Nat) : State :=
  runScript (pushKeyScript (List.replicate kl 0x41) ++ pushNonceScript (List.replicate nl 0x41) ++
    pushDataScript (List.replicate dl 0x41)) (State.start p [])

/-- A `SEAL` of those inputs, accepted, whose request stands at `r`, with `e` as the next event; the
RBP has received one request. -/
def sealing (kl dl : Nat) (r : RbpRequest) (e : Event) : State :=
  { startCommand .sealing (pushed params16 kl 0 dl) with rbpReq := r, rbpRequests := 1, events := [e] }

/-- An `OPEN` of those inputs, accepted, with a turn of the Engine as the next event. -/
def opening (kl nl dl : Nat) : State := { startCommand .opening (pushed params16 kl nl dl) with events := [.turn .engine] }

/-- The result of an empty `SEAL` with the nonce `n0`, `q` of whose 16 bytes have been popped. -/
def sealedDone (q : Nat) : State :=
  { commitSeal n0 (toBytes 0x000102030405060708090a0b0c0d0e0f) (pushed params16 16 0 0) with optr := q }

/-- After a failed command. -/
def failedDone : State := raiseError .lengthLimit (pushed params16 16 0 17)

/-- The invariant from its parts, as one decidable fact. -/
theorem inv_of {s : State}
    (h : s.held = true ∧ (∀ i, (h : i < 32) → s.keylen.toNat ≤ i → s.key[i] = 0) ∧
      (∀ i, (h : i < 12) → s.noncelen.toNat ≤ i → s.nonce[i] = 0) ∧
      s.ibuf.length = min s.ilen.toNat s.params.bufBytes ∧ s.obuf.length = s.olen.toNat ∧ s.optr ≤ s.olen.toNat ∧
      (s.runcmd ≠ .none ↔ s.phase = .busy) ∧ (s.rbpReq ≠ .idle → s.runcmd = .sealing ∧ sealCheck s = none) ∧
      (match s.rbpReq with | .waiting k => decide (k < s.rbpRequests) | _ => true) = true ∧
      (s.phase ≠ .done → s.err = .none) ∧ (s.phase ≠ .done → s.olen = 0) ∧
      (s.phase = .done → s.key = Vector.replicate 32 0 ∧ s.keylen = 0 ∧ s.ibuf = [] ∧ s.ilen = 0) ∧
      (s.phase = .done → s.err ≠ .none → s.olen = 0 ∧ s.nonce = Vector.replicate 12 0 ∧ s.noncelen = 0) ∧
      s.rk = Vector.replicate 15 0 ∧ s.nr = 0 ∧ s.sreg = 0 ∧ s.hreg = 0 ∧ s.j0 = 0 ∧ s.cb = 0 ∧ s.yreg = 0 ∧
      s.ekj0 = 0 ∧ s.tagc = 0) : s.Inv := by
  obtain ⟨a1, a2, a3, a4, a5, a6, a7, a8, ak, a9, a10, a11, a12, b1, b2, b3, b4, b5, b6, b7, b8, b9⟩ := h
  refine ⟨a1, a2, a3, a4, a5, a6, a7, a8, fun k hk => ?_, a9, a10, a11, a12, ⟨b1, b2, b3, b4, b5, b6, b7, b8, b9⟩⟩
  rw [hk] at ak
  exact of_decide_eq_true ak

/-! ## Single steps -/

/-- R163: a 33rd key byte is counted and dropped, a 34th not even counted; neither is a protocol violation. -/
theorem test_push_saturates :
    (pushed params16 33 0 0).keylen = 33 ∧ (pushed params16 34 13 18).keylen = 33 ∧
    (pushed params16 34 13 18).noncelen = 13 ∧ (pushed params16 34 13 18).ilen = 17 ∧
    (pushed params16 34 13 18).ibuf.length = 16 ∧ (pushed params16 34 13 18).proto = false := by decide +kernel

/-- R161, R23: in `DONE` with `IE` = 0, writing `CTRL` with all ones makes `CTRL` read 1 and `STATUS` read 0x6A. -/
theorem test_ctrl_write :
    (transact (.wr32Ctrl 0xFFFFFFFF) failedDone).ctrl = 1 ∧ (transact (.wr32Ctrl 0xFFFFFFFF) failedDone).status = 0x6A := by
  decide +kernel

/-- R166: pops in order, then an empty pop. -/
theorem test_pop :
    (transact .rd8Dout (sealedDone 1)).bus = .ok8 0x01 ∧ (transact .rd8Dout (sealedDone 15)).optr = 16 ∧
    (transact .rd8Dout (sealedDone 16)).bus = .ok8 0x00 ∧ (transact .rd8Dout (sealedDone 16)).proto = true := by
  decide +kernel

/-- R162: `WR32 CMD, 0` in `IDLE` leaves `STATUS` = 0x00000004. -/
theorem test_reserved_command : (transact (.wr32Cmd 0) (State.start params16 [])).status = 4 := by decide +kernel

/-- R160: from `DONE` with an error and `PROTO` set, `CLEAR` gives `STATUS` = 0. -/
theorem test_clear :
    (transact .clearCmd (transact (.wr8Keyin 1) failedDone)).status = 0 ∧
    (transact (.wr8Keyin 1) failedDone).status = 0x66 := by decide +kernel

/-- R164: a pushed nonce byte is visible at once. -/
theorem test_nonce_visible : (transact .rd8Nonce11 (pushed params16 0 12 0)).bus = .ok8 0x41 := by decide +kernel

/-- R119: the worked tag, from the registers. -/
theorem test_tag :
    (transact (.gcmTag 0xf38cbb1ad69223dcc3457ae5b6b0f885)
      (transact (.gcmInit (Vector.replicate 12 0))
        (transact .aesKeyexp { State.start params64 [] with keylen := 16 }))).tagc =
      0xab6e47d42cec13bdf53a67b21257bddf := by decide +kernel

/-- R148: the worked example of `SEAL`, through the driver. -/
def k256 : List Byte := toBytes 0x4145533235364b65792d333243686172 ++ toBytes 0x61637465727331323334353637383930

/-- "testing 123". -/
def pt : List Byte := [0x74, 0x65, 0x73, 0x74, 0x69, 0x6e, 0x67, 0x20, 0x31, 0x32, 0x33]

/-- The result of R148: 11 encrypted bytes and the tag. -/
def ct : List Byte :=
  [0x0c, 0x91, 0xcc, 0x11, 0x1d, 0x03, 0xe3, 0x15, 0x7b, 0x36, 0x22] ++ toBytes 0x9111f54a817e8079cf0595802a5c5b30

theorem test_drvSeal_example :
    (drvSeal k256 pt [[], [.rbp (.ok n0), .engine]] (State.start params64 [])).map (·.1.toOption) =
      some (some (n0.toList, ct)) := by decide +kernel

/-- R210: the same, waiting for `irq`; a turn of the Engine before the answer does nothing (R135). -/
theorem test_drvSealIrq_example :
    (drvSealIrq k256 pt [.engine, .request, .engine, .rbp (.ok n0), .rbp .fail, .engine]
      (State.start params64 [])).map (·.1.toOption) = some (some (n0.toList, ct)) := by decide +kernel

/-- R135: while the RBP has not answered, the driver still waits. -/
theorem test_drvSeal_waits :
    (drvSeal k256 pt [[.engine], [.request, .engine], []] (State.start params64 [])).isNone = true ∧
    (drvSealIrq k256 pt [.engine, .engine] (State.start params64 [])).isNone = true := by decide +kernel

/-- R138: with `DetCounter` shared, another instance's request that comes first takes the number before, one that comes
after this one's receipt does not. -/
theorem test_shared_provider :
    (takeTurns [.otherRequest, .rbp .fail]
      { sealing 16 0 .idle .reset with params := { params16 with rbp := .detCounter n0 } }).rbpReq =
      .answered (.ok #v[0, 1, 2, 3, 4, 5, 6, 7, 8, 9, 10, 13]) ∧
    (takeTurns [.request, .otherRequest, .rbp .fail]
      { sealing 16 0 .idle .reset with params := { params16 with rbp := .detCounter n0 } }).rbpReq =
      .answered (.ok #v[0, 1, 2, 3, 4, 5, 6, 7, 8, 9, 10, 12]) ∧
    (takeTurns [.request, .otherRequest, .rbp .fail] (sealing 16 0 .idle .reset)).rbpRequests = 3 := by decide +kernel

/-- R159: opening it again gives the plaintext; with the last byte changed, an authentication failure. -/
theorem test_drvOpen_example :
    (drvOpen k256 ct n0.toList [[], [.engine]] (State.start params64 [])).map (·.1.toOption) = some (some pt) ∧
    (drvOpen k256 (ct.set 26 0xb0) n0.toList [[.engine]] (State.start params64 [])).map (·.1.toOption) = some none ∧
    (drvOpenIrq k256 ct n0.toList [.engine] (State.start params64 [])).map (·.1.toOption) = some (some pt) := by
  decide +kernel

/-! ## Cases that meet the hypotheses of the statements -/

theorem test_meets_DecodeEncodeAgree : Instr.internal (.wr8Nonce11 0xFF) = false ∧ Instr.internal .sealCmd = false := by
  decide

theorem test_meets_EncodeDecodeAgree :
    decode (.htw 0xC0000008FFFFFFFF) = .ok (.wr32Cmd 0xFFFFFFFF) ∧ decode (.command 3) = .ok .clearCmd := by decide

theorem test_meets_InternalOperationsNotEncoded : Instr.internal .ngenDraw = true := by decide

/-- A word of each malformed kind, and the two extreme well-formed words, with a state that meets them. -/
theorem test_meets_TransactionWordFields :
    (∀ w ∈ ([0x6000000000000000, 0x1000000000000000, 0x0000010000000000, 0x8000000000000100, 0xA000000000010000,
      0x0000000000000001] : List Nat),
      (State.start params16 [.word (.htw (BitVec.ofNat 64 w))]).held = true ∧ (parseHtw (BitVec.ofNat 64 w)).toOption = none) ∧
    (parseHtw 0).toOption = some ⟨false, .b1, 0, 0⟩ ∧
    (parseHtw 0xC00000FFFFFFFFFF).toOption = some ⟨true, .b4, 0xFF, 0xFFFFFFFF⟩ := by decide +kernel

theorem test_meets_StepRunsDecodedInstruction :
    (State.start params16 [.word (.command 1)]).held = true ∧
    (Event.word (.command 1)).instr params16 = some .sealCmd ∧
    (Event.busAccess true .b1 0x120 0xFF).instr params16 = some (.wr8Keyin 0xFF) := by decide +kernel

/-- The ends of the legal ranges, and the offsets next to them. -/
theorem test_meets_IllegalAccessIsBusError :
    (∀ w ∈ ([0x4000000000000000, 0x4000001800000000, 0x0000002000000000, 0x0000002300000000, 0x0000003000000000,
      0x0000003B00000000] : List Nat),
      (parseHtw (BitVec.ofNat 64 w)).toOption.isSome = true ∧ (decode (.htw (BitVec.ofNat 64 w))).toOption.isSome = true) ∧
    (∀ w ∈ ([0x4000001C00000000, 0x4000001600000000, 0x0000001F00000000, 0x0000002400000000, 0x0000002F00000000,
      0x0000003C00000000, 0x2000002000000000] : List Nat),
      (parseHtw (BitVec.ofNat 64 w)).toOption.isSome = true ∧ (State.start params16 [.word (.htw (BitVec.ofNat 64 w))]).held = true ∧
      (decode (.htw (BitVec.ofNat 64 w))).toOption = none) := by decide +kernel

/-- The first and the last address of the block, and the addresses next to them. -/
theorem test_meets_BusAddressReachesOffset :
    params16.base = 256 ∧ busOffset params16 256 = some 0 ∧ busOffset params16 511 = some 255 ∧
    busOffset params16 255 = none ∧ busOffset params16 512 = none ∧
    (State.start params16 [.busAccess false .b4 256 0]).held = true := by decide +kernel

theorem test_meets_ReadsReturnRegisters : Reg.ofAccess 0x1C .b4 = none ∧ Reg.ofAccess 0x20 .b2 = none := by decide

/-- `IDLE` with counters empty, at the limit and saturated, and a state that is not `IDLE`, for the three pushes. -/
theorem test_meets_pushes :
    (∀ n ∈ [0, 11, 12, 13, 15, 16, 17, 31, 32, 33], (pushed params16 n n n).phase = .idle ∧
      (pushed params16 n n n).ibuf.length = min (pushed params16 n n n).ilen.toNat params16.bufBytes) ∧
    failedDone.phase ≠ .idle ∧ (opening 16 12 16).phase ≠ .idle := by decide +kernel

theorem inv_pushed : (pushed params16 16 12 4).Inv := inv_of (by decide +kernel)
theorem inv_sealedDone : (sealedDone 0).Inv := inv_of (by decide +kernel)
theorem inv_failedDone : failedDone.Inv := inv_of (by decide +kernel)

theorem test_meets_PopOnDout :
    (sealedDone 0).optr < (sealedDone 0).olen.toNat ∧ (sealedDone 15).optr < (sealedDone 15).olen.toNat ∧
    (sealedDone 16).olen.toNat ≤ (sealedDone 16).optr ∧
    ((pushed params16 16 12 4).Inv ∧ (pushed params16 16 12 4).phase ≠ .done) ∧
    failedDone.Inv ∧ failedDone.err ≠ .none :=
  ⟨by decide +kernel, by decide +kernel, by decide +kernel, ⟨inv_pushed, by decide +kernel⟩, inv_failedDone,
    by decide +kernel⟩

theorem test_meets_PopsDrainResult : (sealedDone 0).Inv ∧ (sealedDone 0).optr = 0 ∧ (sealedDone 0).olen = 16 :=
  ⟨inv_sealedDone, by decide +kernel, by decide +kernel⟩

theorem test_meets_PushedStringsAndSaturation :
    (State.start params16 []).phase = .idle ∧ (State.start params16 []).keylen = 0 ∧
    (State.start params16 []).noncelen = 0 ∧ (State.start params16 []).ilen = 0 ∧
    (State.start params16 []).ibuf = [] := ⟨rfl, rfl, rfl, rfl, rfl⟩

/-- `IDLE`, `BUSY` and `DONE`, for the acceptance of the three commands; the wiped state needs the invariant. -/
theorem test_meets_commands :
    (pushed params16 16 12 4).phase = .idle ∧ (opening 16 12 16).phase = .busy ∧ failedDone.phase = .done ∧
    failedDone.Inv ∧ (pushed params16 16 12 4).Inv :=
  ⟨by decide +kernel, by decide +kernel, by decide +kernel, inv_failedDone, inv_pushed⟩

theorem test_meets_ReservedCommandIgnored :
    ∀ v ∈ [0, 4, 0x101, 0xFFFFFFFF], BitVec.ofNat 32 v ≠ 1 ∧ BitVec.ofNat 32 v ≠ 2 ∧ BitVec.ofNat 32 v ≠ 3 := by decide

theorem test_meets_ResetValues : ({ failedDone with events := [.reset] } : State).events = .reset :: [] := rfl

/-- Every outcome of a `SEAL`, at the boundary values of the two lengths (`BUF_BYTES` - 16 is 0). -/
theorem test_meets_SealCompletes :
    ((sealing 0 0 .idle (.turn .engine)).Inv ∧ (sealing 33 0 .idle (.turn .engine)).Inv ∧
      (sealing 16 1 .idle (.turn .engine)).Inv ∧ (sealing 32 17 .idle (.turn .engine)).Inv ∧ (sealing 16 0 (.answered .fail) (.turn .engine)).Inv ∧
      (sealing 32 0 (.answered (.ok n0)) (.turn .engine)).Inv) ∧
    (∀ r ∈ [RbpRequest.idle, .answered .fail, .answered (.ok n0)],
      (sealing 16 0 r (.turn .engine)).phase = .busy ∧ (sealing 16 0 r (.turn .engine)).runcmd = .sealing ∧
      (sealing 16 0 r (.turn .engine)).events = .turn .engine :: []) ∧
    (sealing 33 0 .idle (.turn .engine)).keylen = 33 ∧ (sealing 16 1 .idle (.turn .engine)).ilen = 1 ∧
    (sealing 32 17 .idle (.turn .engine)).ilen = 17 ∧ (sealing 32 0 (.answered (.ok n0)) (.turn .engine)).keylen = 32 :=
  ⟨⟨inv_of (by decide +kernel), inv_of (by decide +kernel), inv_of (by decide +kernel), inv_of (by decide +kernel),
    inv_of (by decide +kernel), inv_of (by decide +kernel)⟩, by decide +kernel, by decide +kernel, by decide +kernel,
    by decide +kernel, by decide +kernel⟩

/-- An `OPEN` whose 16 input bytes are the tag of the empty message. -/
def openingValid : State :=
  { opening 16 12 16 with
    ibuf := gcmAe (cipherUnder (List.replicate 16 0x41)) (Vector.replicate 12 0x41) [] }

/-- Every outcome of an `OPEN`, at the boundary values of the three lengths. -/
theorem test_meets_OpenCompletes :
    ((opening 33 12 16).Inv ∧ (opening 16 11 16).Inv ∧ (opening 16 13 16).Inv ∧ (opening 16 12 17).Inv ∧
      (opening 16 12 15).Inv ∧ (opening 32 12 16).Inv ∧ openingValid.Inv) ∧
    (openingValid.phase = .busy ∧ openingValid.runcmd = .opening ∧ openingValid.events = .turn .engine :: []) ∧
    gcmAd (cipherUnder openingValid.keyBytes) openingValid.nonce openingValid.message = some [] :=
  ⟨⟨inv_of (by decide +kernel), inv_of (by decide +kernel), inv_of (by decide +kernel), inv_of (by decide +kernel),
    inv_of (by decide +kernel), inv_of (by decide +kernel), inv_of (by decide +kernel)⟩, by decide +kernel,
    by decide +kernel⟩

/-- A too short input under a 16-byte key beside a tag mismatch under a 32-byte key. -/
theorem test_meets_AuthenticationFailuresIdentical :
    ((opening 16 12 15).Inv ∧ (opening 32 12 16).Inv) ∧
    ((opening 16 12 15).phase = .busy ∧ (opening 16 12 15).runcmd = .opening ∧ (opening 16 12 15).keylen = 16 ∧
      (opening 16 12 15).noncelen = 12 ∧ (opening 16 12 15).ilen.toNat < 16) ∧
    ((opening 32 12 16).phase = .busy ∧ (opening 32 12 16).runcmd = .opening ∧ (opening 32 12 16).keylen = 32 ∧
      (opening 32 12 16).noncelen = 12 ∧ (opening 32 12 16).ilen.toNat ≤ params16.bufBytes ∧
      gcmAd (cipherUnder (opening 32 12 16).keyBytes) (opening 32 12 16).nonce (opening 32 12 16).message = none) ∧
    ((opening 16 12 15).ie = (opening 32 12 16).ie ∧ (opening 16 12 15).proto = (opening 32 12 16).proto ∧
      (opening 16 12 15).params = (opening 32 12 16).params ∧
      (opening 16 12 15).rbpRequests = (opening 32 12 16).rbpRequests ∧
      (opening 16 12 15).bus = (opening 32 12 16).bus ∧ (opening 16 12 15).result = (opening 32 12 16).result) :=
  ⟨⟨inv_of (by decide +kernel), inv_of (by decide +kernel)⟩, by decide +kernel, by decide +kernel, by decide +kernel⟩

/-- A step that has a next state, from states that meet the invariant: the request, an ignored write, an empty pop,
`CLEAR`, a reserved command word. -/
theorem test_meets_steps :
    (∀ e ∈ ([.turn .engine, .turn .request, .turn (.rbp .fail), .turn .otherRequest,
      .word (.command 1), .word (.htw 0x0000002300000000), .word (.command 3), .word (.command 9),
      .reset] : List Event), (sealing 16 0 .idle e).Inv) ∧
    step (sealing 16 0 .idle (.turn .request)) =
      .next (issueRequest { sealing 16 0 .idle (.turn .request) with events := [] }) ∧
    step (sealing 16 0 .idle (.word (.command 1))) =
      .next (ignoreWrite { sealing 16 0 .idle (.turn .engine) with events := [] }) ∧
    step (sealing 16 0 .idle (.word (.htw 0x0000002300000000))) =
      .next (popData { sealing 16 0 .idle (.turn .engine) with events := [] }) ∧
    step (sealing 16 0 .idle (.word (.command 9))) =
      .next (ignoreWrite { sealing 16 0 .idle (.turn .engine) with events := [] }) :=
  ⟨fun e _ => inv_of (by decide +kernel +revert), by rfl, by rfl, by rfl, by rfl⟩

/-- After reset and one failed command, with `l` still to come. -/
def afterFailure (l : List Event) : State := raiseError .invalidKeyLength (State.start params16 l)

/-- The four ways in which `PHASE` changes, and a change of `CTRL`. -/
theorem test_meets_PhaseAndCtrlTransitions :
    step (State.start params16 [.word (.command 2)]) = .next (startCommand .opening (State.start params16 [])) ∧
    step (startCommand .sealing (State.start params16 [.turn .engine])) =
      .next (raiseError .invalidKeyLength (startCommand .sealing (State.start params16 []))) ∧
    step (afterFailure [.word (.command 3)]) = .next (clearCore (afterFailure [])) ∧
    step (afterFailure [.reset]) = .next (resetCore (afterFailure [])) ∧
    step (afterFailure [.word (.htw 0xC000000000000001)]) = .next (writeCtrl 1 (afterFailure [])) :=
  ⟨by rfl, by rfl, by rfl, by rfl, by rfl⟩

/-- Each turn of the Engine and of the RBP. -/
theorem test_meets_RequestAndAnswerTurns :
    (∀ r ∈ [RbpRequest.idle, .waiting 0, .answered (.ok n0)], (sealing 16 0 r (.turn .engine)).held = true ∧
      (sealing 32 0 r (.turn (.rbp (.ok n0)))).held = true ∧ (sealing 16 0 r (.turn .engine)).keylen = 16 ∧
      (sealing 16 0 r (.turn .engine)).ilen.toNat ≤ params16.bufBytes - 16 ∧
      (sealing 16 0 r (.turn .engine)).phase = .busy) ∧
    failedDone.held = true ∧ failedDone.phase ≠ .busy := by decide +kernel

theorem test_meets_DeterministicProviders : 0 < 2 ^ 96 - 1 ∧ 2 ^ 96 - 1 < 0 + 2 ^ 96 := by decide

theorem test_meets_HostSeesNoSecrets :
    Instr.internal .rd8Dout = false ∧ exec .rd8Dout (sealedDone 0) = .next (popData (sealedDone 0)) := ⟨rfl, rfl⟩

theorem test_meets_CoreNeverHalts :
    ∀ e ∈ ([.word (.htw 0xA000000000000001), .busAccess true .b2 0 0xFFFFFFFF, .turn .engine,
      .turn .request, .turn (.rbp .fail), .turn .otherRequest, .reset] : List Event),
      e.wellFormed = true := by decide

/-- A run that ends in `DONE`: a `SEAL` without a key. -/
theorem test_meets_Zeroisation :
    Sys2Proof.core.run 2 (State.start params16 [.word (.command 1), .turn .engine]) =
      .next (raiseError .invalidKeyLength (startCommand .sealing (State.start params16 []))) := by rfl

/-- A running `SEAL` whose events to come are a poll of `STATUS`, the Engine, an ignored `CLEAR`, the RBP's answer, an
illegal access, a request of another instance, the Engine. -/
def sealingPolled : State :=
  { sealing 16 0 .idle .reset with
    events := [.word (.htw 0x4000000400000000), .turn .engine, .word (.command 3)] ++ .turn (.rbp (.ok n0)) ::
      ([.busAccess false .b1 0 0, .turn .otherRequest] ++ .turn .engine :: []) }

theorem test_meets_RunningCommandReachesDone :
    (sealingPolled.Inv ∧ sealingPolled.phase = .busy ∧
      (∀ e ∈ [Event.word (.htw 0x4000000400000000), .turn .engine, .word (.command 3)] ++
        [.busAccess false .b1 0 0, .turn .otherRequest], e.wellFormed = true ∧ e ≠ .reset) ∧
      sealingPolled.events = [.word (.htw 0x4000000400000000), .turn .engine, .word (.command 3)] ++
        .turn (.rbp (.ok n0)) :: ([.busAccess false .b1 0 0, .turn .otherRequest] ++ .turn .engine :: [])) ∧
    ((opening 16 12 16).Inv ∧ (opening 16 12 16).phase = .busy ∧ (opening 16 12 16).runcmd = .opening ∧
      (opening 16 12 16).events = [] ++ .turn .engine :: []) ∧
    ((sealing 33 0 .idle (.turn .engine)).Inv ∧ (sealing 33 0 .idle (.turn .engine)).phase = .busy ∧
      (sealing 33 0 .idle (.turn .engine)).keylen = 33 ∧ (sealing 16 1 .idle (.turn .engine)).Inv ∧
      params16.bufBytes - 16 < (sealing 16 1 .idle (.turn .engine)).ilen.toNat) :=
  ⟨⟨inv_of (by decide +kernel), by decide +kernel, by decide, rfl⟩,
    ⟨inv_of (by decide +kernel), by decide +kernel, by decide +kernel, rfl⟩,
    ⟨inv_of (by decide +kernel), by decide +kernel, by decide +kernel, inv_of (by decide +kernel), by decide +kernel⟩⟩

theorem test_meets_key_lengths :
    key128.length = 16 ∧ key256.length = 32 ∧ (pushed params16 16 0 0).keylen = 16 ∧
    (pushed params16 32 0 0).keylen = 32 := by decide +kernel

theorem test_meets_DrawReturnsAnswer :
    (sealing 16 0 .idle (.turn .engine)).rbpReq = .idle ∧
    (sealing 16 0 (.waiting 0) (.turn .engine)).rbpReq = .waiting 0 ∧
    (sealing 16 0 (.answered .fail) (.turn .engine)).rbpReq = .answered .fail ∧
    (sealing 16 0 (.answered (.ok n0)) (.turn .engine)).rbpReq = .answered (.ok n0) := ⟨rfl, rfl, rfl, rfl⟩

/-- A tag with its last bit changed. -/
theorem test_meets_AlteredTagRejected :
    (List.replicate 15 (0 : Byte) ++ [1]).length = 16 ∧
    List.replicate 15 0 ++ [1] ≠ (gcmAe (fun _ => 0) n0 [7]).drop [(7 : Byte)].length := by decide +kernel

/-- The last byte of the second, short, block of two changed; a cipher that takes the zero block to itself; and, for the
rejection, the same change to encrypted bytes under one that does and under one that does not. -/
theorem test_meets_AlteredCiphertextHash :
    (pt ++ pt).length = ((pt ++ pt).set 21 0).length ∧ 1 < ((pt ++ pt).length + 15) / 16 ∧
    (∀ i, i / 16 ≠ 1 → (pt ++ pt)[i]? = ((pt ++ pt).set 21 0)[i]?) ∧ (fun _ : Block => (0 : Block)) 0 = 0 := by
  refine ⟨by decide, by decide, fun i hi => ?_, rfl⟩
  rw [List.getElem?_set_ne (by omega)]

theorem test_meets_AlteredCiphertextHash_rejection (z : Block) (hz : z = 0 ∨ z = 1) :
    let enc := (gcmAe (fun _ => z) n0 (pt ++ pt)).take (pt ++ pt).length
    (enc.set 21 0x5a).length = (pt ++ pt).length ∧ enc.set 21 0x5a ≠ enc ∧
    (∀ i, i / 16 ≠ 1 → (enc.set 21 0x5a)[i]? = enc[i]?) ∧
    ((gcmAd (fun _ => z) n0 (enc.set 21 0x5a ++ (gcmAe (fun _ => z) n0 (pt ++ pt)).drop (pt ++ pt).length)).isNone = true ↔
      z = 1) := by
  refine ⟨?_, ?_, fun i hi => by rw [List.getElem?_set_ne (by omega)], ?_⟩ <;>
    rcases hz with rfl | rfl <;> decide +kernel

/-- The first and the last block of the longest message of the largest buffer. -/
theorem test_meets_CounterNeverWraps :
    (⟨⟨4294967278, by norm_num⟩, 0, .production⟩ : Params).bufBytes = 2 ^ 32 - 2 ∧ 0 < (2 ^ 32 - 2 + 15) / 16 ∧
    2 ^ 28 - 1 < (2 ^ 32 - 2 + 15) / 16 := by norm_num [Params.bufBytes]

theorem test_meets_OperationsComputeGcm :
    (pushed params16 16 0 0).keylen = 16 ∧ 16 ≤ (toBytes 0).length := by decide +kernel

/-- An odd length, a character that is no digit, and two strings that decode. -/
theorem test_meets_HexCodec :
    ['0'].length % 2 = 1 ∧ hexVal ' ' = none ∧ hexVal 'g' = none ∧ hexVal '/' = none ∧ hexVal ':' = none ∧
    hexDecode [] = .ok [] ∧ hexDecode ['f', 'F'] = .ok [0xff] := ⟨by decide, by decide, by decide, by decide, by decide, rfl, rfl⟩

theorem test_meets_drivers : (State.start params16 []).Inv ∧ (pushed params16 16 12 4).Inv ∧
    (pushed params16 16 12 4).phase = .idle :=
  ⟨inv_of (by decide +kernel), inv_pushed, by decide +kernel⟩

/-- Schedules at whose end a driver ends and not before, and schedules under which it does not: for a `SEAL` that draws, one
that does not, and an `OPEN`. -/
theorem test_meets_driver_schedules :
    [Turn.rbp (.ok n0), .engine].Sublist ([[], [.engine, .rbp (.ok n0)], [.engine]] : List (List Turn)).flatten ∧
    (∀ d, ¬ [Turn.rbp d, .engine].Sublist ([[], [.engine, .rbp (.ok n0)]] : List (List Turn)).flatten) ∧
    (∀ d, ¬ [Turn.rbp d, .engine].Sublist ([[.engine], [.request, .engine]] : List (List Turn)).flatten) ∧
    Turn.engine ∈ ([[], [.engine]] : List (List Turn)).flatten ∧
    Turn.engine ∉ ([[], [.rbp .fail, .otherRequest]] : List (List Turn)).flatten := by
  refine ⟨by decide, fun d h => ?_, fun d h => ?_, by decide, by decide⟩
  · have := h.eq_of_length rfl
    simp at this
  · have := h.subset List.mem_cons_self
    simp at this

end Sys2Proof.Tests
end

section
/-! SUPPORT. The turns around a draw: exactly when a `SEAL`'s request is pending, what each turn does then and otherwise, and
the step that takes a turn off the sequence. -/

namespace Sys2Proof.Machine

/-- Exactly when `SEAL`'s checks before the draw pass (R141, R142). -/
theorem sealCheck_eq_none_iff (s : State) :
    sealCheck s = none ↔ (s.keylen = 16 ∨ s.keylen = 32) ∧ s.ilen.toNat ≤ s.params.bufBytes - 16 := by
  refine ⟨sealCheck_none, fun ⟨hkey, hlen⟩ => ?_⟩
  have hgood : s.badKeyLength = false := by rcases hkey with h | h <;> simp [State.badKeyLength, h]
  rw [sealCheck, hgood, if_neg Bool.false_ne_true, if_neg (Nat.not_lt.mpr hlen)]

/-- Exactly when the request to the RBP is pending, on the registers (R36, R141). -/
theorem drawPending_iff_registers (s : State) :
    s.drawPending = true ↔ s.phase = .busy ∧ s.runcmd = .sealing ∧ (s.keylen = 16 ∨ s.keylen = 32) ∧
      s.ilen.toNat ≤ s.params.bufBytes - 16 := by
  rw [drawPending_iff, sealCheck_eq_none_iff]

/-- Outside `BUSY` the Engine has no step (R10). -/
theorem engineTurn_not_busy {s : State} (h : s.phase ≠ .busy) : engineTurn s = s := if_neg h

/-- Before the answer its `SEAL` needs the Engine has no step (R135). -/
theorem engineTurn_awaiting_answer {s : State} (hp : s.drawPending = true) (ha : ∀ a, s.rbpReq ≠ .answered a) :
    engineTurn s = s := by
  obtain ⟨hbusy, hsealing, hcheck⟩ := (drawPending_iff s).mp hp
  have hturn : engineTurn s = completeSeal s := by simp [engineTurn, hbusy, hsealing]
  rcases completeSeal_cases s with ⟨e, he, _⟩ | ⟨_, _, hs⟩ | ⟨_, hr, _⟩ | ⟨n, _, hr, _⟩
  · exact absurd (hcheck.symm.trans he) (by simp)
  · exact hturn.trans hs
  · exact absurd hr (ha _)
  · exact absurd hr (ha _)

theorem requestTurn_pending {s : State} (hp : s.drawPending = true) (hi : s.rbpReq = .idle) :
    requestTurn s = issueRequest s := by
  simp [requestTurn, hp, hi]

theorem requestTurn_nothing_to_receive {s : State} (h : s.drawPending ≠ true ∨ s.rbpReq ≠ .idle) :
    requestTurn s = s := by
  rcases requestTurn_cases s with ⟨hp, hi, _⟩ | ⟨_, hs⟩
  · exact absurd h (by simp [hp, hi])
  · exact hs

/-- The RBP answers a request that it receives only now (R131). -/
theorem rbpTurn_pending {s : State} (d : Answer) (hp : s.drawPending = true) (hi : s.rbpReq = .idle) :
    rbpTurn d s = { s with
      rbpReq := .answered (providerAnswer s.params.rbp s.rbpRequests d), rbpRequests := s.rbpRequests + 1 } := by
  rw [rbpTurn, requestTurn_pending hp hi]
  rfl

/-- The RBP answers a request that it received at an earlier turn (R131). -/
theorem rbpTurn_waiting {s : State} {k : Nat} (d : Answer) (hw : s.rbpReq = .waiting k) :
    rbpTurn d s = { s with rbpReq := .answered (providerAnswer s.params.rbp k d) } := by
  simp [rbpTurn, requestTurn, hw]

/-- An answer that no draw waits for is discarded (R239). -/
theorem rbpTurn_nothing_to_answer {s : State} (d : Answer)
    (h : (s.drawPending ≠ true ∧ s.rbpReq = .idle) ∨ ∃ a, s.rbpReq = .answered a) : rbpTurn d s = s := by
  rcases rbpTurn_cases d s with ⟨hp, hi, _⟩ | ⟨k, hw, _⟩ | ⟨_, hs⟩
  · exact absurd h (by simp [hp, hi])
  · exact absurd h (by simp [hw])
  · exact hs

/-- A step that takes a turn off the sequence is that turn (R62, R244). -/
theorem step_turn {s : State} {t : Turn} {l : List Event} (hheld : s.held = true) (he : s.events = .turn t :: l) :
    step s = .next (takeTurn { s with events := l } t) := by
  rw [step_cons he, runEvent_held (s := { s with events := l }) hheld]

/-- Settles O30: each turn is one of the lemmas above, on the state whose first event is taken off. -/
theorem requestAndAnswerTurns : Obligations.RequestAndAnswerTurns := by
  intro s l d hheld r pending
  have hpending : r.drawPending = true ↔ pending := drawPending_iff_registers r
  have hnext {t : Turn} {u : State} (he : s.events = .turn t :: l) (ht : takeTurn r t = u) : step s = .next u :=
    ht ▸ step_turn hheld he
  refine ⟨fun he h => hnext he ?engine,
    fun he => ⟨fun hp hi => hnext he ?received, fun h => hnext he ?nothingToReceive⟩,
    fun he => ⟨fun hp hi => hnext he ?receivedAndAnswered, fun k hw => hnext he ?answered,
      fun h => hnext he ?nothingToAnswer⟩,
    fun he => hnext he rfl⟩
  case engine =>
    rcases h with hidle | ⟨hp, ha⟩
    · exact engineTurn_not_busy hidle
    · exact engineTurn_awaiting_answer (hpending.mpr hp) ha
  case received => exact requestTurn_pending (hpending.mpr hp) hi
  case nothingToReceive => exact requestTurn_nothing_to_receive (h.imp_left hpending.not.mpr)
  case receivedAndAnswered => exact rbpTurn_pending d (hpending.mpr hp) hi
  case answered => exact rbpTurn_waiting d hw
  case nothingToAnswer => exact rbpTurn_nothing_to_answer d (h.imp_left (And.imp_left hpending.not.mpr))

end Sys2Proof.Machine
end

section
/-! SUPPORT. What one step can do, on the event it takes: the events perform host instructions only, and every step with a
next state is one of the shapes of `StepEffect`. -/

namespace Sys2Proof.Machine

theorem readInstr_not_internal (r : Reg) : (readInstr r).internal = false := by
  cases r with
  | nonce i => fin_cases i <;> rfl
  | _ => rfl

theorem writeInstr_not_internal (r : Reg) (v : Word) : (writeInstr r v).internal = false := by
  cases r with
  | nonce i => fin_cases i <;> rfl
  | _ => rfl

/-- A transaction performs no internal operation, and it is decoded but for an illegal access (R54, R82). -/
theorem decodeTransaction_cases (a : Transaction) :
    (∃ i, i.internal = false ∧ decodeTransaction a = .ok i) ∨ decodeTransaction a = .error .illegalAccess := by
  unfold decodeTransaction
  cases Reg.ofAccess a.off a.size with
  | none => exact .inr rfl
  | some r =>
    refine .inl ⟨_, ?_, rfl⟩
    split
    · exact writeInstr_not_internal r a.data
    · exact readInstr_not_internal r

/-- No host transaction word is a reserved command word (R71, R74). -/
theorem parseHtw_not_reservedCommand (w : BitVec 64) : parseHtw w ≠ .error .reservedCommand := by
  unfold parseHtw
  split
  · simp
  · split_ifs <;> simp

/-- A trace word performs no internal operation; only a command word is reserved (R74, R82). -/
theorem decode_cases (w : TraceWord) :
    (∃ i, i.internal = false ∧ decode w = .ok i) ∨
    (∃ v : Word, w = .command v ∧ v ≠ 1 ∧ v ≠ 2 ∧ v ≠ 3 ∧ decode w = .error .reservedCommand) ∨
    (∃ e, e ≠ .reservedCommand ∧ decode w = .error e) := by
  cases w with
  | htw w =>
    cases hp : parseHtw w with
    | error e => exact .inr (.inr ⟨e, fun he => parseHtw_not_reservedCommand w (he ▸ hp), by simp [decode, decodeHtw, hp]⟩)
    | ok a =>
      have hd : decode (.htw w) = decodeTransaction a := by simp [decode, decodeHtw, hp]
      rw [hd]
      rcases decodeTransaction_cases a with h | h
      · exact .inl h
      · exact .inr (.inr ⟨_, by simp, h⟩)
  | command v =>
    simp only [decode, decodeCommand]
    split_ifs with h1 h2 h3
    · exact .inl ⟨_, rfl, rfl⟩
    · exact .inl ⟨_, rfl, rfl⟩
    · exact .inl ⟨_, rfl, rfl⟩
    · exact .inr (.inl ⟨v, rfl, h1, h2, h3, rfl⟩)

/-- What the event `e` does to the state `s` that it leaves behind: a host instruction, a transaction that performs none
(`BUSERR`, R58; outside the block, log 21), a reserved command word (R74), a turn, a reset. -/
inductive StepEffect (s : State) : Event → State → Prop where
  | host {e : Event} {i : Instr} {t : State} (hi : e.instr s.params = some i) (hd : i.internal = false)
      (ht : HostEffect i s t) : StepEffect s e t
  | illegal {e : Event} (hi : e.instr s.params = none) (hr : e ≠ .reset) (hu : ∀ u, e ≠ .turn u) :
      StepEffect s e (busError s)
  | outside {e : Event} (hi : e.instr s.params = none) (hr : e ≠ .reset) (hu : ∀ u, e ≠ .turn u) : StepEffect s e s
  | reserved (v : Word) (h1 : v ≠ 1) (h2 : v ≠ 2) (h3 : v ≠ 3) (hi : (Event.word (.command v)).instr s.params = none) :
      StepEffect s (.word (.command v)) (ignoreWrite s)
  | turn (u : Turn) : StepEffect s (.turn u) (takeTurn s u)
  | reset : StepEffect s .reset (resetCore s)

/-- A host instruction that an event performs has an effect of one of the shapes of `HostEffect`. -/
theorem stepEffect_of_exec {s t : State} {e : Event} {i : Instr} (hi : e.instr s.params = some i)
    (hd : i.internal = false) (h : exec i s = .next t) : StepEffect s e t := by
  obtain ⟨u, hu, heff⟩ := exec_host hd s
  obtain rfl : u = t := by simpa [hu] using h
  exact .host hi hd heff

theorem stepEffect_of_word {s t : State} {w : TraceWord} (h : runDecoded (decode w) s = .next t) :
    StepEffect s (.word w) t := by
  rcases decode_cases w with ⟨i, hd, hw⟩ | ⟨v, rfl, h1, h2, h3, hw⟩ | ⟨e, he, hw⟩ <;> rw [hw] at h
  · exact stepEffect_of_exec (by simp [Event.instr, hw, Except.toOption]) hd h
  · cases h
    exact .reserved v h1 h2 h3 (by simp [Event.instr, hw, Except.toOption])
  · rcases runDecoded_cases (.error e) s with ⟨_, hc, _⟩ | ⟨_, hn⟩ | ⟨hc, _⟩ | ⟨_, _, _, _, hn⟩
    · cases hc
    · rw [hn] at h
      cases h
      exact .illegal (by simp [Event.instr, hw, Except.toOption]) (by simp) (by simp)
    · exact absurd (Except.error.inj hc) he
    · rw [hn] at h
      cases h

theorem stepEffect_of_busAccess {s t : State} {wr : Bool} {size : AccessSize} {addr : Nat} {data : Word}
    (h : runBusAccess wr size addr data s = .next t) : StepEffect s (.busAccess wr size addr data) t := by
  unfold runBusAccess at h
  cases ho : busOffset s.params addr with
  | none =>
    rw [ho] at h
    cases h
    exact .outside (by simp [Event.instr, ho]) (by simp) (by simp)
  | some off =>
    rw [ho] at h
    rcases decodeTransaction_cases ⟨wr, size, off, data⟩ with ⟨i, hd, hw⟩ | hw
    · exact stepEffect_of_exec (by simp [Event.instr, ho, hw, Except.toOption]) hd (by simpa [runDecoded, hw] using h)
    · obtain rfl : busError s = t := by simpa [runDecoded, hw] using h
      exact .illegal (by simp [Event.instr, ho, hw, Except.toOption]) (by simp) (by simp)

/-- Every step that takes an event and has a next state is one of the shapes of `StepEffect`. -/
theorem step_stepEffect {s t : State} {e : Event} {l : List Event} (he : s.events = e :: l) (h : step s = .next t) :
    StepEffect { s with events := l } e t := by
  rw [step_cons he] at h
  rcases runEvent_next h with ⟨rfl, rfl⟩ | ⟨_, ⟨w, rfl, hw⟩ | ⟨wr, size, addr, data, rfl, hb⟩ | ⟨u, rfl, rfl⟩⟩
  · exact .reset
  · exact stepEffect_of_word hw
  · exact stepEffect_of_busAccess hb
  · exact .turn u

/-- A run of `k + 1` steps with a next state is one step and a run of `k` steps. -/
theorem run_succ_next {M : Host.Core} {k : Nat} {s t : M.State} (h : M.run (k + 1) s = .next t) :
    ∃ u, M.step s = .next u ∧ M.run k u = .next t := by
  rw [Host.Core.run] at h
  split at h
  · next u hu => exact ⟨u, hu, h⟩
  · cases h
  · cases h

/-- What every step keeps, a run keeps (R244). -/
theorem run_keeps {P : State → Prop} (hstep : ∀ s t, P s → step s = .next t → P t) {k : Nat} {s t : State} (hs : P s)
    (h : Sys2Proof.core.run k s = .next t) : P t := by
  induction k generalizing s with
  | zero => cases h; exact hs
  | succ k ih =>
    obtain ⟨u, hu, hrun⟩ := run_succ_next h
    exact ih (hstep s u hs hu) hrun

end Sys2Proof.Machine
end

section
/-! SUPPORT. The invariant: how long results are, that each operation of a step keeps it, and zeroisation. -/

namespace Sys2Proof.Machine

/-! ## The lengths of results -/

theorem gctr_length (ciph : Block → Block) (icb : Block) (x : List Byte) : (gctr ciph icb x).length = x.length :=
  gctrLoop_length ciph _ icb x (blockCount_bound x.length)

/-- `GCM_AE` returns the encrypted bytes and a tag of 16 bytes (R122). -/
theorem gcmAe_length (ciph : Block → Block) (n : Nonce) (p : List Byte) : (gcmAe ciph n p).length = p.length + 16 := by
  simp [gcmAe, gctr_length]

/-- `GCM_AD` returns as many bytes as stand before the tag (R123). -/
theorem gcmAd_length {ciph : Block → Block} {n : Nonce} {ct p : List Byte} (h : gcmAd ciph n ct = some p) :
    p.length = ct.length - 16 := by
  unfold gcmAd at h
  dsimp only at h
  split at h
  · obtain rfl := Option.some.inj h
    simp [gctr_length]
  · cases h

theorem message_length_le (s : State) : s.message.length ≤ min s.ilen.toNat s.params.bufBytes := by
  simp only [State.message, List.length_take]
  omega

/-- `BUF_BYTES` is at most 2^32 - 2 (R9): every count of bytes fits its register. -/
theorem bufBytes_lt (p : Params) : p.bufBytes + 1 < 2 ^ 32 := by
  have := p.bufAbove16.isLt
  unfold Params.bufBytes
  omega

theorem bufBytes_ge (p : Params) : 16 ≤ p.bufBytes := Nat.le_add_left 16 _

/-! ## The range of the registers -/

/-- The values of U8 that no register holds, as bounds. -/
theorem held_iff (s : State) :
    s.held = true ↔ s.keylen.toNat ≤ 33 ∧ s.noncelen.toNat ≤ 13 ∧ s.ilen.toNat ≤ s.params.bufBytes + 1 ∧
      s.olen.toNat ≤ s.params.bufBytes ∧ s.err ≠ .decodeError := by
  simp only [State.held, Bool.and_eq_true, decide_eq_true_eq, and_assoc]

/-- A push leaves the count below a saturation value that fits the register (R163 to R165). -/
theorem toNat_saturated (n m : Nat) (h : m < 2 ^ 32) : (BitVec.ofNat 32 (min n m)).toNat = min n m := by
  rw [BitVec.toNat_ofNat, Nat.mod_eq_of_lt (by omega)]

/-- The checks of a command never find `DecodeError`, which is the host wrapper's. -/
theorem sealCheck_ne_decodeError {s : State} {e : ErrCode} (h : sealCheck s = some e) : e ≠ .decodeError := by
  unfold sealCheck at h
  split_ifs at h <;> · cases h; simp

theorem openCheck_ne_decodeError {s : State} {e : ErrCode} (h : openCheck s = some e) : e ≠ .decodeError := by
  unfold openCheck at h
  split_ifs at h <;> · cases h; simp

/-! ## Zeroed registers -/

theorem zeroise_scratchZero (s : State) : (zeroise s).ScratchZero := ⟨rfl, rfl, rfl, rfl, rfl, rfl, rfl, rfl, rfl⟩

theorem reset_scratchZero : State.reset.ScratchZero := ⟨rfl, rfl, rfl, rfl, rfl, rfl, rfl, rfl, rfl⟩

/-! ## Pushes outside `IDLE` -/

theorem pushKey_ignored {v : Byte} {s : State} (h : s.phase ≠ .idle) : pushKey v s = ignoreWrite s :=
  (push_ignored h).1

theorem pushNonce_ignored {v : Byte} {s : State} (h : s.phase ≠ .idle) : pushNonce v s = ignoreWrite s :=
  (push_ignored h).2.1

theorem pushData_ignored {v : Byte} {s : State} (h : s.phase ≠ .idle) : pushData v s = ignoreWrite s :=
  (push_ignored h).2.2

/-! ## States that meet the invariant whatever came before -/

theorem start_inv (p : Params) (l : List Event) : (State.start p l).Inv where
  held := by simp [held_iff]
  keyTail i h _ := Vector.getElem_replicate h
  nonceTail i h _ := Vector.getElem_replicate h
  ibufLength := by simp
  obufLength := by simp
  optrRange := by simp
  runcmdBusy := by simp
  requestSealing := by simp
  requestCounted := by simp
  errDone := by simp
  noResult := by simp
  inputsWiped := by simp
  failureWiped := by simp
  scratch := { reset_scratchZero with }

/-- A reset gives a start state but for the RBP's own count (R230, R239). -/
theorem resetCore_inv (s : State) : (resetCore s).Inv :=
  { start_inv s.params s.events with
    requestCounted := by simp
    scratch := { reset_scratchZero with } }

/-- The failure commit wipes everything the invariant speaks of (R205). -/
theorem raiseError_inv {e : ErrCode} (he : e ≠ .decodeError) (s : State) : (raiseError e s).Inv where
  held := by simp [held_iff, he]
  keyTail i h _ := Vector.getElem_replicate h
  nonceTail i h _ := Vector.getElem_replicate h
  ibufLength := by simp
  obufLength := by simp
  optrRange := by simp
  runcmdBusy := by simp
  requestSealing := by simp
  requestCounted := by simp
  errDone := by simp
  noResult := by simp
  inputsWiped := by simp
  failureWiped := by simp
  scratch := { zeroise_scratchZero s with }

/-! ## What keeps the invariant -/

namespace State.Inv

variable {s : State}

/-- The invariant does not speak of `CTRL`, `PROTO`, the two observations and the events still to come. -/
theorem withVisible (h : s.Inv) (ie proto : Bool) (bus : BusResponse) (result : OpResult) (events : List Event) :
    State.Inv { s with ie := ie, proto := proto, bus := bus, result := result, events := events } :=
  { h with scratch := { h.scratch with } }

/-- A request is held in `BUSY` only (R36). -/
theorem rbpReq_idle (h : s.Inv) (hp : s.phase ≠ .busy) : s.rbpReq = .idle := by
  by_contra hr
  exact hp (h.runcmdBusy.mp (by simp [(h.requestSealing hr).1]))

theorem runcmd_none (h : s.Inv) (hp : s.phase ≠ .busy) : s.runcmd = .none := by
  by_contra hr
  exact hp (h.runcmdBusy.mp hr)

/-- The success commit, for a result that fits the buffer (R204). -/
theorem commitResult (h : s.Inv) {out : List Byte} (hout : out.length ≤ s.params.bufBytes) :
    (commitResult out s).Inv := by
  have hlen : (BitVec.ofNat 32 out.length).toNat = out.length := by
    have := bufBytes_lt s.params
    rw [BitVec.toNat_ofNat, Nat.mod_eq_of_lt (by omega)]
  obtain ⟨_, hnonce, _, _, _⟩ := (held_iff s).mp h.held
  exact
    { held := by simp [held_iff, hnonce, hlen, hout, -BitVec.toNat_ofNat]
      keyTail := fun i hi _ => Vector.getElem_replicate hi
      nonceTail := h.nonceTail
      ibufLength := by simp
      obufLength := hlen.symm
      optrRange := by simp
      runcmdBusy := by simp
      requestSealing := by simp
      requestCounted := by simp
      errDone := by simp
      noResult := by simp
      inputsWiped := by simp
      failureWiped := by simp
      scratch := { zeroise_scratchZero s with } }

/-- The success commit of a `SEAL` (R141, R204). -/
theorem commitSeal (h : s.Inv) (n : Nonce) {out : List Byte} (hout : out.length ≤ s.params.bufBytes) :
    (commitSeal n out s).Inv := by
  have hc := h.commitResult hout
  obtain ⟨hkey, _, hilen, holen, herr⟩ := (held_iff _).mp hc.held
  exact
    { hc with
      held := (held_iff _).mpr ⟨hkey, by simp, hilen, holen, herr⟩
      nonceTail := fun i hi hle => absurd hi (Nat.not_lt.mpr hle)
      failureWiped := by simp
      scratch := { hc.scratch with } }

theorem pushKey (h : s.Inv) (v : Byte) : (pushKey v s).Inv := by
  by_cases hp : s.phase = .idle
  case neg =>
    rw [pushKey_ignored hp]
    exact h.withVisible ..
  rw [pushKey_idle hp]
  have hlen := toNat_saturated (s.keylen.toNat + 1) 33 (by omega)
  have hreq := h.rbpReq_idle (by simp [hp])
  obtain ⟨_, hnonce, hilen, holen, herr⟩ := (held_iff s).mp h.held
  exact
    { h with
      held := (held_iff _).mpr ⟨by dsimp only; omega, hnonce, hilen, holen, herr⟩
      keyTail := fun i hi hle => by
        dsimp only at hle ⊢
        rw [Vector.getElem_setIfInBounds_ne _ (by omega)]
        exact h.keyTail i hi (by omega)
      requestSealing := fun hr => absurd hreq hr
      inputsWiped := fun hd => absurd (hp.symm.trans hd) (by simp)
      scratch := { h.scratch with } }

theorem pushNonce (h : s.Inv) (v : Byte) : (pushNonce v s).Inv := by
  by_cases hp : s.phase = .idle
  case neg =>
    rw [pushNonce_ignored hp]
    exact h.withVisible ..
  rw [pushNonce_idle hp]
  have hlen := toNat_saturated (s.noncelen.toNat + 1) 13 (by omega)
  obtain ⟨hkey, _, hilen, holen, herr⟩ := (held_iff s).mp h.held
  exact
    { h with
      held := (held_iff _).mpr ⟨hkey, by dsimp only; omega, hilen, holen, herr⟩
      nonceTail := fun i hi hle => by
        dsimp only at hle ⊢
        rw [Vector.getElem_setIfInBounds_ne _ (by omega)]
        exact h.nonceTail i hi (by omega)
      failureWiped := fun hd => absurd (hp.symm.trans hd) (by simp)
      scratch := { h.scratch with } }

theorem pushData (h : s.Inv) (v : Byte) : (pushData v s).Inv := by
  by_cases hp : s.phase = .idle
  case neg =>
    rw [pushData_ignored hp]
    exact h.withVisible ..
  rw [pushData_idle hp]
  have hlen := toNat_saturated (s.ilen.toNat + 1) (s.params.bufBytes + 1) (bufBytes_lt s.params)
  have hreq := h.rbpReq_idle (by simp [hp])
  have hbuf := h.ibufLength
  obtain ⟨hkey, hnonce, _, holen, herr⟩ := (held_iff s).mp h.held
  exact
    { h with
      held := (held_iff _).mpr ⟨hkey, hnonce, by dsimp only; omega, holen, herr⟩
      ibufLength := by
        dsimp only
        rw [hlen]
        split_ifs with hroom
        · rw [List.length_append, List.length_singleton]
          omega
        · omega
      requestSealing := fun hr => absurd hreq hr
      inputsWiped := fun hd => absurd (hp.symm.trans hd) (by simp)
      scratch := { h.scratch with } }

theorem popData (h : s.Inv) : (popData s).Inv := by
  by_cases hp : s.optr < s.olen.toNat
  · rw [popData_some hp]
    exact { h with optrRange := hp, scratch := { h.scratch with } }
  · rw [popData_empty hp]
    exact h.withVisible ..

theorem startCommand (h : s.Inv) {c : RunCmd} (hc : c ≠ .none) : (startCommand c s).Inv := by
  rcases startCommand_cases c s with ⟨hp, he⟩ | ⟨_, he⟩ <;> rw [he]
  · have hnot : s.phase ≠ .done := by simp [hp]
    exact
      { h with
        runcmdBusy := by simp [hc]
        requestSealing := fun hr => absurd (h.rbpReq_idle (by simp [hp])) hr
        errDone := fun _ => h.errDone hnot
        noResult := fun _ => h.noResult hnot
        inputsWiped := by simp
        failureWiped := by simp
        scratch := { h.scratch with } }
  · exact h.withVisible ..

theorem clearCore (h : s.Inv) : (clearCore s).Inv := by
  rcases clearCore_cases s with ⟨_, he⟩ | ⟨hp, he⟩ <;> rw [he]
  · exact h.withVisible ..
  · exact
      { start_inv s.params s.events with
        runcmdBusy := by simp [h.runcmd_none hp]
        requestSealing := fun hr => absurd (h.rbpReq_idle hp) hr
        requestCounted := h.requestCounted
        scratch := { h.scratch with } }

/-- Every host instruction keeps the invariant. -/
theorem hostEffect (h : s.Inv) {i : Instr} {t : State} (ht : HostEffect i s t) : t.Inv := by
  cases ht with
  | read b => exact h.withVisible ..
  | pop => exact h.popData
  | ctrl v => exact h.withVisible ..
  | keyin v => exact h.pushKey v
  | noncein v => exact h.pushNonce v
  | din v => exact h.pushData v
  | start => exact h.startCommand (by simp)
  | startOpen => exact h.startCommand (by simp)
  | clear => exact h.clearCore
  | ignore => exact h.withVisible ..

theorem completeSeal (h : s.Inv) : (completeSeal s).Inv := by
  rcases completeSeal_cases s with ⟨e, hc, he⟩ | ⟨_, _, he⟩ | ⟨_, _, he⟩ | ⟨n, hc, _, he⟩ <;> rw [he]
  · exact raiseError_inv (sealCheck_ne_decodeError hc) s
  · exact h
  · exact raiseError_inv (by simp) s
  · refine h.commitSeal n ?_
    have hmessage := message_length_le s
    have hroom := (sealCheck_none hc).2
    have hbuf := bufBytes_ge s.params
    rw [gcmAe_length]
    omega

theorem completeOpen (h : s.Inv) : (completeOpen s).Inv := by
  rcases completeOpen_cases s with ⟨e, hc, he⟩ | ⟨_, _, he⟩ | ⟨p, _, hp, he⟩ <;> rw [he]
  · exact raiseError_inv (openCheck_ne_decodeError hc) s
  · exact raiseError_inv (by simp) s
  · refine h.commitResult ?_
    have hmessage := message_length_le s
    rw [gcmAd_length hp]
    omega

theorem engineTurn (h : s.Inv) : (engineTurn s).Inv := by
  rcases engineTurn_cases s with ⟨_, _, he⟩ | ⟨_, _, he⟩ | ⟨_, he⟩ <;> rw [he]
  · exact h.completeSeal
  · exact h.completeOpen
  · exact h

/-- The RBP receives or answers the request of a `SEAL` past its checks, and does not forget one it has received. -/
theorem withRequest (h : s.Inv) {r : RbpRequest} {n : Nat} (hs : s.runcmd = .sealing ∧ sealCheck s = none)
    (hn : ∀ k, r = .waiting k → k < n) : State.Inv { s with rbpReq := r, rbpRequests := n } :=
  { h with requestSealing := fun _ => hs, requestCounted := hn, scratch := { h.scratch with } }

theorem requestTurn (h : s.Inv) : (requestTurn s).Inv := by
  rcases requestTurn_cases s with ⟨hd, _, he⟩ | ⟨_, he⟩ <;> rw [he]
  · exact h.withRequest ((drawPending_iff s).mp hd).2 fun k hk => by cases hk; exact Nat.lt_succ_self _
  · exact h

theorem rbpTurn (h : s.Inv) (draw : Answer) : (rbpTurn draw s).Inv := by
  rcases rbpTurn_cases draw s with ⟨hd, _, he⟩ | ⟨k, hk, he⟩ | ⟨_, he⟩ <;> rw [he]
  · exact h.withRequest ((drawPending_iff s).mp hd).2 (by simp)
  · exact h.withRequest (h.requestSealing (by simp [hk])) (by simp)
  · exact h

theorem otherRequestTurn (h : s.Inv) : (otherRequestTurn s).Inv :=
  { h with
    requestCounted := fun k hk => Nat.lt_succ_of_lt (h.requestCounted k hk)
    scratch := { h.scratch with } }

theorem takeTurn (h : s.Inv) (u : Turn) : (takeTurn s u).Inv := by
  cases u with
  | engine => exact h.engineTurn
  | request => exact h.requestTurn
  | rbp draw => exact h.rbpTurn draw
  | otherRequest => exact h.otherRequestTurn

theorem stepEffect (h : s.Inv) {e : Event} {t : State} (ht : StepEffect s e t) : t.Inv := by
  cases ht with
  | host _ _ ht => exact h.hostEffect ht
  | illegal => exact h.withVisible ..
  | outside => exact h
  | reserved => exact h.withVisible ..
  | turn u => exact h.takeTurn u
  | reset => exact resetCore_inv s

end State.Inv

/-- Settles O36: the step is one of the shapes of `StepEffect`, and each keeps the invariant. -/
theorem stepKeepsInvariant : Obligations.StepKeepsInvariant := by
  intro s t h hstep
  cases he : s.events with
  | nil =>
    obtain rfl : s = t := by simpa [step_nil he] using hstep
    exact h
  | cons e l => exact (h.withVisible s.ie s.proto s.bus s.result l).stepEffect (step_stepEffect he hstep)

/-- Settles O35: a start state and the state after a reset event meet every clause, whatever the state before. -/
theorem invariantAtReset : Obligations.InvariantAtReset := ⟨start_inv, resetCore_inv⟩

/-! ## Zeroisation -/

/-- Every state that a run from reset reaches meets the invariant. -/
theorem run_start_inv {p : Params} {l : List Event} {k : Nat} {t : State}
    (h : Sys2Proof.core.run k (State.start p l) = .next t) : t.Inv :=
  run_keeps stepKeepsInvariant (start_inv p l) h

/-- A command that runs without a key ends with `InvalidKeyLength` (R142, R152). -/
theorem engineTurn_without_key {s : State} (hp : s.phase = .busy) (hr : s.runcmd ≠ .none) (hk : s.keylen = 0) :
    (engineTurn s).err = .invalidKeyLength := by
  have hbad : s.badKeyLength = true := by simp [State.badKeyLength, hk]
  have hseal : sealCheck s = some .invalidKeyLength := by rw [sealCheck, if_pos hbad]
  have hopen : openCheck s = some .invalidKeyLength := by rw [openCheck, if_pos hbad]
  rcases engineTurn_cases s with ⟨_, _, he⟩ | ⟨_, _, he⟩ | ⟨hnot, _⟩
  · rw [he, completeSeal, hseal]
    rfl
  · rw [he, completeOpen, hopen]
    rfl
  · exact absurd hnot (by simp [hp, hr])

/-- After `CLEAR` a command started without a new key ends with `InvalidKeyLength` (R35). -/
theorem command_after_clear_err {s : State} (hp : s.phase ≠ .busy) {c : RunCmd} (hc : c ≠ .none) :
    (engineTurn (startCommand c (clearCore s))).err = .invalidKeyLength := by
  have hidle : (clearCore s).phase = .idle := by simp [clearCore, hp]
  have hkey : (clearCore s).keylen = 0 := by simp [clearCore, hp]
  rw [startCommand, if_pos hidle]
  exact engineTurn_without_key rfl hc hkey

/-- Settles O38: the invariant of the state reached, and what a command finds after `CLEAR`. -/
theorem zeroisation : Obligations.Zeroisation := by
  intro p l k t hrun
  have h := run_start_inv hrun
  refine ⟨fun _ => h.scratch, fun hdone => ?_⟩
  obtain ⟨hkey, hkeylen, hibuf, hilen⟩ := h.inputsWiped hdone
  refine ⟨hkey, hkeylen, hibuf, hilen, fun herr => ?_, ?_⟩
  · obtain ⟨holen, hnonce, hnoncelen⟩ := h.failureWiped hdone herr
    have hobuf : t.obuf = [] := List.length_eq_zero_iff.mp (by simp [h.obufLength, holen])
    exact ⟨hnonce, hnoncelen, hobuf, holen⟩
  · have hnot : t.phase ≠ .busy := by simp [hdone]
    rintro c (rfl | rfl)
    · exact command_after_clear_err hnot (c := .sealing) (by simp)
    · exact command_after_clear_err hnot (c := .opening) (by simp)

end Sys2Proof.Machine
end

section
/-! SUPPORT. What each operation of a step does to `PHASE` and to `CTRL`, and the transitions of R22. -/

namespace Sys2Proof.Machine

/-! ## Pushes and pops -/

theorem pushKey_phase_ie (v : Byte) (s : State) : (pushKey v s).phase = s.phase ∧ (pushKey v s).ie = s.ie := by
  unfold pushKey
  split <;> exact ⟨rfl, rfl⟩

theorem pushNonce_phase_ie (v : Byte) (s : State) :
    (pushNonce v s).phase = s.phase ∧ (pushNonce v s).ie = s.ie := by
  unfold pushNonce
  split <;> exact ⟨rfl, rfl⟩

theorem pushData_phase_ie (v : Byte) (s : State) :
    (pushData v s).phase = s.phase ∧ (pushData v s).ie = s.ie := by
  unfold pushData
  split <;> exact ⟨rfl, rfl⟩

theorem popData_phase_ie (s : State) : (popData s).phase = s.phase ∧ (popData s).ie = s.ie := by
  unfold popData
  split <;> exact ⟨rfl, rfl⟩

/-! ## Commands -/

/-- `SEAL` and `OPEN` go from `IDLE` to `BUSY` or leave `PHASE` alone (R140, R150). -/
theorem startCommand_phase (c : RunCmd) (s : State) :
    (startCommand c s).phase = s.phase ∨ (s.phase = .idle ∧ (startCommand c s).phase = .busy) := by
  rcases startCommand_cases c s with ⟨hp, he⟩ | ⟨_, he⟩ <;> rw [he]
  · exact .inr ⟨hp, rfl⟩
  · exact .inl rfl

theorem startCommand_ie (c : RunCmd) (s : State) : (startCommand c s).ie = s.ie := by
  rcases startCommand_cases c s with ⟨_, he⟩ | ⟨_, he⟩ <;> simp [he]

/-- `CLEAR` goes from `DONE` to `IDLE` or leaves `PHASE` alone (R160). -/
theorem clearCore_phase (s : State) :
    (clearCore s).phase = s.phase ∨ (s.phase = .done ∧ (clearCore s).phase = .idle) := by
  rcases clearCore_cases s with ⟨_, he⟩ | ⟨hp, he⟩ <;> rw [he]
  · exact .inl rfl
  · cases hs : s.phase with
    | idle => exact .inl rfl
    | busy => exact absurd hs hp
    | done => exact .inr ⟨rfl, rfl⟩

theorem clearCore_ie (s : State) : (clearCore s).ie = s.ie := by
  rcases clearCore_cases s with ⟨_, he⟩ | ⟨_, he⟩ <;> simp [he]

/-! ## Turns -/

/-- `Complete` commits, which leads to `DONE`, or is not enabled; it leaves `CTRL` alone (R141, R151). -/
theorem completeSeal_phase_ie (s : State) :
    ((completeSeal s).phase = .done ∨ completeSeal s = s) ∧ (completeSeal s).ie = s.ie := by
  rcases completeSeal_cases s with ⟨_, _, he⟩ | ⟨_, _, he⟩ | ⟨_, _, he⟩ | ⟨_, _, _, he⟩ <;> rw [he] <;> simp

theorem completeOpen_phase_ie (s : State) : (completeOpen s).phase = .done ∧ (completeOpen s).ie = s.ie := by
  rcases completeOpen_cases s with ⟨_, _, he⟩ | ⟨_, _, he⟩ | ⟨_, _, _, he⟩ <;> rw [he] <;> simp

/-- The Engine goes from `BUSY` to `DONE` or leaves `PHASE` alone (R10). -/
theorem engineTurn_phase (s : State) :
    (engineTurn s).phase = s.phase ∨ (s.phase = .busy ∧ (engineTurn s).phase = .done) := by
  rcases engineTurn_cases s with ⟨hp, _, he⟩ | ⟨hp, _, he⟩ | ⟨_, he⟩ <;> rw [he]
  · rcases (completeSeal_phase_ie s).1 with hd | hs
    · exact .inr ⟨hp, hd⟩
    · exact .inl (by rw [hs])
  · exact .inr ⟨hp, (completeOpen_phase_ie s).1⟩
  · exact .inl rfl

theorem engineTurn_ie (s : State) : (engineTurn s).ie = s.ie := by
  rcases engineTurn_cases s with ⟨_, _, he⟩ | ⟨_, _, he⟩ | ⟨_, he⟩ <;> rw [he]
  · exact (completeSeal_phase_ie s).2
  · exact (completeOpen_phase_ie s).2

/-- A turn of the RBP changes neither `PHASE` nor `CTRL` (R131, R138). -/
theorem requestTurn_phase_ie (s : State) : (requestTurn s).phase = s.phase ∧ (requestTurn s).ie = s.ie := by
  rcases requestTurn_cases s with ⟨_, _, he⟩ | ⟨_, he⟩ <;> rw [he] <;> exact ⟨rfl, rfl⟩

theorem rbpTurn_phase_ie (draw : Answer) (s : State) :
    (rbpTurn draw s).phase = s.phase ∧ (rbpTurn draw s).ie = s.ie := by
  rcases rbpTurn_cases draw s with ⟨_, _, he⟩ | ⟨_, _, he⟩ | ⟨_, he⟩ <;> rw [he] <;> exact ⟨rfl, rfl⟩

/-! ## The transitions -/

/-- How `PHASE` may change at a host instruction (R22). -/
theorem hostEffect_phase {i : Instr} {s t : State} (h : HostEffect i s t) :
    t.phase = s.phase ∨
    (s.phase = .idle ∧ t.phase = .busy ∧ (i.command = some .sealCmd ∨ i.command = some .openCmd)) ∨
    (s.phase = .done ∧ t.phase = .idle ∧ i.command = some .clearCmd) := by
  cases h with
  | read b => exact .inl rfl
  | pop => exact .inl (popData_phase_ie s).1
  | ctrl v => exact .inl rfl
  | keyin v => exact .inl (pushKey_phase_ie v s).1
  | noncein v => exact .inl (pushNonce_phase_ie v s).1
  | din v => exact .inl (pushData_phase_ie v s).1
  | start hc => exact (startCommand_phase .sealing s).imp_right fun ⟨hi, hb⟩ => .inl ⟨hi, hb, .inl hc⟩
  | startOpen hc => exact (startCommand_phase .opening s).imp_right fun ⟨hi, hb⟩ => .inl ⟨hi, hb, .inr hc⟩
  | clear hc => exact (clearCore_phase s).imp_right fun ⟨hd, hi⟩ => .inr ⟨hd, hi, hc⟩
  | ignore => exact .inl rfl

/-- Only the write of `CTRL` changes `IE` (R21, R161). -/
theorem hostEffect_ie {i : Instr} {s t : State} (h : HostEffect i s t) : t.ie = s.ie ∨ ∃ v, i = .wr32Ctrl v := by
  cases h with
  | read b => exact .inl rfl
  | pop => exact .inl (popData_phase_ie s).2
  | ctrl v hi => exact .inr ⟨v, hi⟩
  | keyin v => exact .inl (pushKey_phase_ie v s).2
  | noncein v => exact .inl (pushNonce_phase_ie v s).2
  | din v => exact .inl (pushData_phase_ie v s).2
  | start => exact .inl (startCommand_ie .sealing s)
  | startOpen => exact .inl (startCommand_ie .opening s)
  | clear => exact .inl (clearCore_ie s)
  | ignore => exact .inl rfl

/-- A turn changes `PHASE` only when it is the Engine's, from `BUSY` to `DONE` (R22). -/
theorem takeTurn_phase (s : State) (u : Turn) :
    (takeTurn s u).phase = s.phase ∨ (s.phase = .busy ∧ (takeTurn s u).phase = .done ∧ u = .engine) := by
  cases u with
  | engine => exact (engineTurn_phase s).imp_right fun ⟨hb, hd⟩ => ⟨hb, hd, rfl⟩
  | request => exact .inl (requestTurn_phase_ie s).1
  | rbp draw => exact .inl (rbpTurn_phase_ie draw s).1
  | otherRequest => exact .inl rfl

theorem takeTurn_ie (s : State) (u : Turn) : (takeTurn s u).ie = s.ie := by
  cases u with
  | engine => exact engineTurn_ie s
  | request => exact (requestTurn_phase_ie s).2
  | rbp draw => exact (rbpTurn_phase_ie draw s).2
  | otherRequest => rfl

/-- Settles O33: the cases of `StepEffect`, each with the lemmas above. -/
theorem phaseAndCtrlTransitions : Obligations.PhaseAndCtrlTransitions := by
  intro s t e l he hstep
  refine ⟨fun hphase => ?_, fun hie => ?_⟩
  · cases step_stepEffect he hstep with
    | host hi _ ht =>
      rcases hostEffect_phase ht with hsame | ⟨hidle, hbusy, hc⟩ | ⟨hdone, hidle, hc⟩
      · exact absurd hsame hphase
      · exact .inl ⟨hidle, hbusy, _, hi, hc⟩
      · exact .inr (.inr (.inl ⟨hdone, hidle, _, hi, hc⟩))
    | illegal => exact absurd rfl hphase
    | outside => exact absurd rfl hphase
    | reserved => exact absurd rfl hphase
    | turn u =>
      rcases takeTurn_phase { s with events := l } u with hsame | ⟨hbusy, hdone, rfl⟩
      · exact absurd hsame hphase
      · exact .inr (.inl ⟨hbusy, hdone, rfl⟩)
    | reset => exact .inr (.inr (.inr ⟨rfl, rfl⟩))
  · cases step_stepEffect he hstep with
    | host hi _ ht =>
      rcases hostEffect_ie ht with hsame | ⟨v, rfl⟩
      · exact absurd hsame hie
      · exact .inr ⟨v, hi⟩
    | illegal => exact absurd rfl hie
    | outside => exact absurd rfl hie
    | reserved => exact absurd rfl hie
    | turn u => exact absurd (takeTurn_ie { s with events := l } u) hie
    | reset => exact .inl rfl

end Sys2Proof.Machine
end

section
/-! SUPPORT. Two runs of a host operation, on states that differ in the secrets only. -/

namespace Sys2Proof.Machine

/-- The operation `f` neither shows the secrets nor lets anything but the secrets depend on them: with other secrets it
leaves the same state but for the secrets (R216). -/
def HidesSecrets (f : State → State) : Prop := ∀ s secret, (f (s.withSecrets secret)).withSecrets (f s) = f s

theorem ignoreWrite_hidesSecrets : HidesSecrets ignoreWrite := fun _ _ => rfl

theorem writeCtrl_hidesSecrets (v : Word) : HidesSecrets (writeCtrl v) := fun _ _ => rfl

/-- A pop reads `OBUF`, which is no secret (R28, R166). -/
theorem popData_hidesSecrets : HidesSecrets popData := by
  intro s secret
  by_cases h : s.optr < s.olen.toNat
  · rw [popData_some h, popData_some (s := s.withSecrets secret) h]
    rfl
  · rw [popData_empty h, popData_empty (s := s.withSecrets secret) h]
    rfl

/-- The registers a host can read are no secrets (R26, R27, R33, R56). -/
theorem memRead_hidesSecrets (r : Reg) : HidesSecrets (memRead r) := by
  cases r with
  | dout => exact popData_hidesSecrets
  | _ => exact fun _ _ => rfl

theorem pushKey_hidesSecrets (v : Byte) : HidesSecrets (pushKey v) := by
  intro s secret
  by_cases h : s.phase = .idle
  · rw [pushKey_idle h, pushKey_idle (s := s.withSecrets secret) h]
    rfl
  · rw [pushKey_ignored h, pushKey_ignored (s := s.withSecrets secret) h]
    rfl

theorem pushNonce_hidesSecrets (v : Byte) : HidesSecrets (pushNonce v) := by
  intro s secret
  by_cases h : s.phase = .idle
  · rw [pushNonce_idle h, pushNonce_idle (s := s.withSecrets secret) h]
    rfl
  · rw [pushNonce_ignored h, pushNonce_ignored (s := s.withSecrets secret) h]
    rfl

theorem pushData_hidesSecrets (v : Byte) : HidesSecrets (pushData v) := by
  intro s secret
  by_cases h : s.phase = .idle
  · rw [pushData_idle h, pushData_idle (s := s.withSecrets secret) h]
    rfl
  · rw [pushData_ignored h, pushData_ignored (s := s.withSecrets secret) h]
    rfl

/-- A command is accepted by `PHASE` alone (R140, R150). -/
theorem startCommand_hidesSecrets (c : RunCmd) : HidesSecrets (startCommand c) := by
  intro s secret
  by_cases h : s.phase = .idle <;> simp only [startCommand, withSecrets_phase, h] <;> rfl

theorem clearCore_hidesSecrets : HidesSecrets clearCore := by
  intro s secret
  by_cases h : s.phase = .busy <;> simp only [clearCore, withSecrets_phase, h] <;> rfl

theorem writeCommand_hidesSecrets (v : Word) : HidesSecrets (writeCommand v) := by
  intro s secret
  unfold writeCommand
  split_ifs
  · exact startCommand_hidesSecrets .sealing s secret
  · exact startCommand_hidesSecrets .opening s secret
  · exact clearCore_hidesSecrets s secret
  · exact ignoreWrite_hidesSecrets s secret

/-- Every host instruction is an operation that hides the secrets. -/
theorem exec_hidesSecrets {i : Instr} (h : i.internal = false) :
    ∃ f, HidesSecrets f ∧ ∀ s, exec i s = .next (f s) := by
  cases i with
  | rd32Ctrl | rd32Status | rd32Cmd | rd32Keylen | rd32Noncelen | rd32Ilen | rd32Olen | rd8Keyin | rd8Noncein | rd8Din
  | rd8Nonce0 | rd8Nonce1 | rd8Nonce2 | rd8Nonce3 | rd8Nonce4 | rd8Nonce5 | rd8Nonce6 | rd8Nonce7 | rd8Nonce8
  | rd8Nonce9 | rd8Nonce10 | rd8Nonce11 => exact ⟨_, memRead_hidesSecrets _, fun _ => rfl⟩
  | rd8Dout => exact ⟨_, popData_hidesSecrets, fun _ => rfl⟩
  | wr32Status | wr32Keylen | wr32Noncelen | wr32Ilen | wr32Olen | wr8Dout | wr8Nonce0 | wr8Nonce1 | wr8Nonce2
  | wr8Nonce3 | wr8Nonce4 | wr8Nonce5 | wr8Nonce6 | wr8Nonce7 | wr8Nonce8 | wr8Nonce9 | wr8Nonce10 | wr8Nonce11 =>
    exact ⟨_, ignoreWrite_hidesSecrets, fun _ => rfl⟩
  | wr32Ctrl v => exact ⟨_, writeCtrl_hidesSecrets v, fun _ => rfl⟩
  | wr8Keyin v => exact ⟨_, pushKey_hidesSecrets v, fun _ => rfl⟩
  | wr8Noncein v => exact ⟨_, pushNonce_hidesSecrets v, fun _ => rfl⟩
  | wr8Din v => exact ⟨_, pushData_hidesSecrets v, fun _ => rfl⟩
  | sealCmd => exact ⟨_, startCommand_hidesSecrets .sealing, fun _ => rfl⟩
  | openCmd => exact ⟨_, startCommand_hidesSecrets .opening, fun _ => rfl⟩
  | clearCmd => exact ⟨_, clearCore_hidesSecrets, fun _ => rfl⟩
  | wr32Cmd v => exact ⟨_, writeCommand_hidesSecrets v, fun _ => rfl⟩
  | aesKeyexp | aesCipher | gcmGfmul | gcmInc32 | gcmGhash | gcmGctr | gcmInit | gcmTag | gcmTageq | ngenDraw => cases h

/-- Settles O34: the two runs are one operation that hides the secrets. -/
theorem hostSeesNoSecrets : Obligations.HostSeesNoSecrets := by
  intro s secret t i hi h
  obtain ⟨f, hf, hexec⟩ := exec_hidesSecrets hi
  obtain rfl : f s = t := by simpa [hexec] using h
  exact ⟨f (s.withSecrets secret), hexec _, hf s secret⟩

end Sys2Proof.Machine
end

section
/-! SUPPORT. The block counter, the last four bytes of a counter block (R34, R113). -/

namespace Sys2Proof.Machine

/-- The counter of a counter block `b` is `b.toNat % 2 ^ 32`; `GCM.INC32` adds one to it (R112). -/
theorem inc32_counter (b : Block) : (inc32 b).toNat % 2 ^ 32 = (b.toNat % 2 ^ 32 + 1) % 2 ^ 32 := by
  have hlow : (inc32 b).setWidth 32 = b.extractLsb' 0 32 + 1 := BitVec.setWidth_append_eq_right
  calc (inc32 b).toNat % 2 ^ 32 = ((inc32 b).setWidth 32).toNat := (BitVec.toNat_setWidth 32 _).symm
    _ = (b.toNat % 2 ^ 32 + 1) % 2 ^ 32 := by simp [hlow]

/-- After `k` increments without wrap the counter is `k` more. -/
theorem iterate_inc32_counter (b : Block) (k : Nat) (h : b.toNat % 2 ^ 32 + k < 2 ^ 32) :
    (inc32^[k] b).toNat % 2 ^ 32 = b.toNat % 2 ^ 32 + k := by
  induction k with
  | zero => rfl
  | succ k ih =>
    rw [Function.iterate_succ_apply', inc32_counter, ih (by omega), Nat.mod_eq_of_lt (by omega)]
    rfl

/-- The counter of the pre-counter block is 1 (R118). -/
theorem preCounter_counter (nonce : Nonce) : (preCounter nonce).toNat % 2 ^ 32 = 1 := by
  have hblock : preCounter nonce = ofBytes nonce.toList <<< 32 ||| 1#128 := by
    simp [preCounter, ofBytes, List.foldl_append, ← BitVec.shiftLeft_add]
  have hnonce : (ofBytes nonce.toList <<< 32).toNat % 2 ^ 32 = 0 := by
    rw [BitVec.toNat_shiftLeft, Nat.shiftLeft_eq]
    omega
  rw [hblock, BitVec.toNat_or, Nat.or_mod_two_pow, hnonce]
  rfl

/-- Settles O56: the counter starts at 2, and `BUF_BYTES` leaves it no room to wrap. -/
theorem counterNeverWraps : Obligations.CounterNeverWraps := by
  intro p nonce n k hn hk
  have hbuf := bufBytes_lt p
  have hfirst : (inc32 (preCounter nonce)).toNat % 2 ^ 32 = 2 := by
    rw [inc32_counter, preCounter_counter]
    rfl
  refine ⟨?_, by omega⟩
  rw [iterate_inc32_counter _ k (by omega), hfirst, Nat.add_comm]

end Sys2Proof.Machine
end

section
/-! SUPPORT. The interrupt output as a level (R32). -/

namespace Sys2Proof.Machine

theorem irq_iff (s : State) : s.irq = true ↔ s.ie = true ∧ s.phase = .done := by simp [State.irq]

/-- `irq` is low whenever `IE` is 0 or `PHASE` is not `DONE`. -/
theorem irq_low {s : State} (h : s.ie = false ∨ s.phase ≠ .done) : s.irq = false := by
  rcases h with h | h <;> simp [State.irq, h]

/-- `STATUS` bit 3 is `irq` (R23, R32). -/
theorem status_getLsbD_irq (s : State) : s.status.getLsbD 3 = s.irq := by
  simp only [State.status, BitVec.getLsbD_append]
  simp

/-- Settles O23: one lemma for each reading of `irq`, and `irq_low` for the three ways it falls. -/
theorem irqIsLevel : Obligations.IrqIsLevel := by
  refine fun s =>
    ⟨irq_iff s, status_getLsbD_irq s, irq_low (.inl rfl), fun hdone => irq_low (.inr ?_), irq_low (.inl rfl)⟩
  have hclear : (transact .clearCmd s).phase = .idle := by
    rcases clearCore_cases s with ⟨hbusy, _⟩ | ⟨_, he⟩
    · exact absurd (hdone.symm.trans hbusy) (by simp)
    · exact congrArg State.phase he
  simp [hclear]

end Sys2Proof.Machine
end

section
/-! SUPPORT. The transactions of the bus: what a step does with a trace word and with a bus address, which accesses are
legal, and what every read and every write of a register does. -/

namespace Sys2Proof.Machine

/-! ## Steps -/

/-- A step that takes a trace word off the sequence runs what the word decodes to (R62, R70). -/
theorem step_word {s : State} {w : TraceWord} {l : List Event} (hheld : s.held = true) (he : s.events = .word w :: l) :
    step s = runDecoded (decode w) { s with events := l } := by
  rw [step_cons he, runEvent_held (s := { s with events := l }) hheld]

/-- A step that takes a bus access off the sequence runs it (R52, R62). -/
theorem step_busAccess {s : State} {wr : Bool} {size : AccessSize} {addr : Nat} {data : Word} {l : List Event}
    (hheld : s.held = true) (he : s.events = .busAccess wr size addr data :: l) :
    step s = runBusAccess wr size addr data { s with events := l } := by
  rw [step_cons he, runEvent_held (s := { s with events := l }) hheld]

/-- Running a decoded word that is an instruction is running the instruction. -/
theorem runDecoded_of_toOption {d : Except DecodeError Instr} {i : Instr} (h : d.toOption = some i) (s : State) :
    runDecoded d s = exec i s := by
  cases d with
  | error e => cases h
  | ok j => cases h; rfl

/-- An event that performs an instruction runs it (R62, R70). -/
theorem runEvent_instr {e : Event} {s : State} {i : Instr} (hheld : s.held = true) (hi : e.instr s.params = some i) :
    runEvent e s = exec i s := by
  rw [runEvent_held hheld]
  cases e with
  | word w => exact runDecoded_of_toOption hi s
  | busAccess wr size addr data =>
    simp only [Event.instr] at hi
    simp only [runBusAccess]
    cases ho : busOffset s.params addr with
    | none => simp [ho] at hi
    | some off => exact runDecoded_of_toOption (by simpa [ho] using hi) s
  | turn u => cases hi
  | reset => cases hi

/-- Settles O6: the step is the event on the state without it, and the event runs the instruction it performs. -/
theorem stepRunsDecodedInstruction : Obligations.StepRunsDecodedInstruction := by
  intro s e l i hheld he hi
  rw [step_cons he]
  exact runEvent_instr (s := { s with events := l }) hheld hi

/-! ## Legal accesses -/

/-- The list of R54: the seven 32-bit registers, the four ports, the twelve nonce bytes. -/
def LegalAccess (off : BitVec 8) (size : AccessSize) : Prop :=
  (size = .b4 ∧ off.toNat % 4 = 0 ∧ off.toNat ≤ 0x18) ∨
  (size = .b1 ∧ (0x20 ≤ off.toNat ∧ off.toNat ≤ 0x23 ∨ 0x30 ≤ off.toNat ∧ off.toNat ≤ 0x3B))

theorem nonce_offset_toNat (i : Fin 12) : (Reg.nonce i).offset.toNat = 0x30 + i.val := by
  simp only [Reg.offset]
  bv_omega

/-- Every register is at a place of the list of R54. -/
theorem legalAccess_reg (r : Reg) : LegalAccess r.offset r.size := by
  cases r with
  | nonce i =>
    have hoff := nonce_offset_toNat i
    exact .inr ⟨rfl, .inr (by omega)⟩
  | ctrl | status | cmd | keylen | noncelen | ilen | olen => exact .inl (by decide)
  | keyin | noncein | din | dout => exact .inr (by decide)

/-- At every place of the list of R54 there is a register. -/
theorem exists_reg_of_legalAccess {off : BitVec 8} {size : AccessSize} (h : LegalAccess off size) :
    ∃ r : Reg, r.offset = off ∧ r.size = size := by
  rcases h with ⟨rfl, hword⟩ | ⟨rfl, hport | hnonce⟩
  · have hoff : off = 0x00 ∨ off = 0x04 ∨ off = 0x08 ∨ off = 0x0c ∨ off = 0x10 ∨ off = 0x14 ∨ off = 0x18 := by bv_omega
    rcases hoff with rfl | rfl | rfl | rfl | rfl | rfl | rfl
    exacts [⟨.ctrl, rfl, rfl⟩, ⟨.status, rfl, rfl⟩, ⟨.cmd, rfl, rfl⟩, ⟨.keylen, rfl, rfl⟩, ⟨.noncelen, rfl, rfl⟩,
      ⟨.ilen, rfl, rfl⟩, ⟨.olen, rfl, rfl⟩]
  · have hoff : off = 0x20 ∨ off = 0x21 ∨ off = 0x22 ∨ off = 0x23 := by bv_omega
    rcases hoff with rfl | rfl | rfl | rfl
    exacts [⟨.keyin, rfl, rfl⟩, ⟨.noncein, rfl, rfl⟩, ⟨.din, rfl, rfl⟩, ⟨.dout, rfl, rfl⟩]
  · refine ⟨.nonce ⟨off.toNat - 0x30, by omega⟩, BitVec.eq_of_toNat_eq ?_, rfl⟩
    rw [nonce_offset_toNat]
    exact Nat.add_sub_cancel' hnonce.1

/-- A legal access decodes to an instruction (R54). -/
theorem decodeTransaction_legal {a : Transaction} (h : LegalAccess a.off a.size) : ∃ i, decodeTransaction a = .ok i := by
  obtain ⟨r, hoff, hsize⟩ := exists_reg_of_legalAccess h
  have hreg : Reg.ofAccess a.off a.size = some r := hoff ▸ hsize ▸ ofAccess_offset_size r
  exact ⟨_, by rw [decodeTransaction, hreg]⟩

/-- No register is reached by an access that is not on the list (R54). -/
theorem ofAccess_illegal {off : BitVec 8} {size : AccessSize} (h : ¬ LegalAccess off size) :
    Reg.ofAccess off size = none := by
  cases hr : Reg.ofAccess off size with
  | none => rfl
  | some r =>
    obtain ⟨rfl, rfl⟩ := ofAccess_eq_some hr
    exact absurd (legalAccess_reg r) h

/-- A transaction that reaches no register is answered `BUSERR` and changes nothing else (R58). -/
theorem runDecoded_noRegister {a : Transaction} (h : Reg.ofAccess a.off a.size = none) (s : State) :
    runDecoded (decodeTransaction a) s = .next (busError s) := by
  rw [decodeTransaction, h]
  rfl

theorem decode_htw {w : BitVec 64} {a : Transaction} (h : parseHtw w = .ok a) :
    decode (.htw w) = decodeTransaction a := by
  simp only [decode, decodeHtw, h]

/-- Settles O7: the registers stand exactly at the places of R54's list, and what reaches no register is `BUSERR`. -/
theorem illegalAccessIsBusError : Obligations.IllegalAccessIsBusError := by
  intro s l w a hheld he hparse legal
  have hdecode := decode_htw hparse
  refine ⟨fun hlegal => hdecode ▸ decodeTransaction_legal hlegal, fun hillegal => ?_⟩
  rw [step_word hheld he, hdecode]
  exact runDecoded_noRegister (ofAccess_illegal hillegal) _

/-! ## Bus addresses -/

theorem busOffset_inside {p : Params} {addr : Nat} (hlow : p.base ≤ addr) (hhigh : addr < p.base + 256) :
    busOffset p addr = some (BitVec.ofNat 8 (addr - p.base)) := if_pos ⟨hlow, hhigh⟩

theorem busOffset_outside {p : Params} {addr : Nat} (h : addr < p.base ∨ p.base + 256 ≤ addr) :
    busOffset p addr = none := if_neg (by omega)

/-- Settles O8: the step is the access, whose offset is known inside the block and absent outside. -/
theorem busAddressReachesOffset : Obligations.BusAddressReachesOffset := by
  intro s l wr size addr data hheld he
  rw [step_busAccess hheld he]
  refine ⟨Nat.mul_mod_right 256 _, fun hlow hhigh => ?inside, fun hout => ?outside⟩
  case inside => simp only [runBusAccess, busOffset_inside hlow hhigh]
  case outside => simp only [runBusAccess, busOffset_outside hout]

/-! ## Reads -/

/-- The instruction that reads a register is the read of it (R56, R81). -/
theorem exec_readInstr (r : Reg) (s : State) : exec (readInstr r) s = .next (memRead r s) := by
  cases r with
  | nonce i => fin_cases i <;> rfl
  | _ => rfl

theorem ctrl_eq_ofNat (s : State) : s.ctrl = BitVec.ofNat 32 s.ie.toNat := by
  cases h : s.ie <;> simp [State.ctrl, h]

/-- The value of two fields side by side. -/
theorem toNat_append_eq_add {m n : Nat} (x : BitVec m) (y : BitVec n) : (x ++ y).toNat = x.toNat * 2 ^ n + y.toNat := by
  rw [BitVec.toNat_append, ← Nat.shiftLeft_add_eq_or_of_lt y.isLt, Nat.shiftLeft_eq]

/-- `STATUS` as the sum of its fields at their places (R23). -/
theorem status_eq_ofNat (s : State) :
    s.status = BitVec.ofNat 32 (s.phase.code.toNat + 4 * s.proto.toNat + 8 * s.irq.toNat + 16 * s.err.code.toNat) := by
  apply BitVec.eq_of_toNat_eq
  have hphase := s.phase.code.isLt
  have hproto := s.proto.toNat_le
  have hirq := s.irq.toNat_le
  have herr := s.err.code.isLt
  simp only [State.status, toNat_append_eq_add, BitVec.toNat_ofBool, BitVec.toNat_ofNat]
  omega

/-- Settles O9: a read instruction is `memRead` of its register, and an illegal read reaches none. -/
theorem readsReturnRegisters : Obligations.ReadsReturnRegisters := by
  intro s
  have hctrl : exec .rd32Ctrl s = .next (s.respond (.ok32 s.ctrl)) := exec_readInstr .ctrl s
  have hstatus : exec .rd32Status s = .next (s.respond (.ok32 s.status)) := exec_readInstr .status s
  rw [ctrl_eq_ofNat] at hctrl
  rw [status_eq_ofNat] at hstatus
  have hnonce (i : Fin 12) : exec (readInstr (.nonce i)) s = .next (s.respond (.ok8 s.nonce[i])) :=
    exec_readInstr (.nonce i) s
  exact ⟨hctrl, hstatus, exec_readInstr .cmd s, exec_readInstr .keylen s, exec_readInstr .noncelen s,
    exec_readInstr .ilen s, exec_readInstr .olen s, exec_readInstr .keyin s, exec_readInstr .noncein s,
    exec_readInstr .din s, exec_readInstr .dout s, hnonce 0, hnonce 1, hnonce 2, hnonce 3, hnonce 4, hnonce 5, hnonce 6,
    hnonce 7, hnonce 8, hnonce 9, hnonce 10, hnonce 11, fun _ _ hnone => runDecoded_noRegister hnone s⟩

/-! ## Writes -/

/-- The instruction that writes a register is the write of it (R57, R81). -/
theorem exec_writeInstr (r : Reg) (v : Word) (s : State) : exec (writeInstr r v) s = .next (memWrite r v s) := by
  cases r with
  | nonce i => fin_cases i <;> rfl
  | _ => rfl

/-- Every byte is the low byte of a word, the value a byte write carries (R71). -/
theorem exists_word_setWidth (b : Byte) : ∃ v : Word, b = v.setWidth 8 := ⟨b.setWidth 32, by simp⟩

/-- Settles O10: the instructions are the writes of the registers that `memWrite` treats as read-only. -/
theorem readOnlyWritesSetProto : Obligations.ReadOnlyWritesSetProto := by
  intro s v b i hi
  obtain ⟨w, rfl⟩ := exists_word_setWidth b
  have hnonce (i : Fin 12) : exec (writeInstr (.nonce i) w) s = .next (ignoreWrite s) := exec_writeInstr (.nonce i) w s
  rcases hi with
    rfl | rfl | rfl | rfl | rfl | rfl | rfl | rfl | rfl | rfl | rfl | rfl | rfl | rfl | rfl | rfl | rfl | rfl
  exacts [exec_writeInstr .status v s, exec_writeInstr .keylen v s, exec_writeInstr .noncelen v s,
    exec_writeInstr .ilen v s, exec_writeInstr .olen v s, exec_writeInstr .dout w s, hnonce 0, hnonce 1, hnonce 2,
    hnonce 3, hnonce 4, hnonce 5, hnonce 6, hnonce 7, hnonce 8, hnonce 9, hnonce 10, hnonce 11]

end Sys2Proof.Machine
end

section
/-! SUPPORT. Draining the result through `DOUT` (R59, R166). -/

namespace Sys2Proof.Machine

theorem transact_rd8Dout (s : State) : transact .rd8Dout s = popData s := rfl

/-- `k` pops with `k` bytes left return them in order and change nothing but the pointer and the response (R59). -/
theorem readBytes_popDataScript {k : Nat} {s : State} (hlen : s.obuf.length = s.olen.toNat)
    (hk : s.optr + k ≤ s.olen.toNat) :
    (readBytes (popDataScript k) s).1 = (s.obuf.drop s.optr).take k ∧
    ∃ b, (readBytes (popDataScript k) s).2 = { s with optr := s.optr + k, bus := b } := by
  induction k generalizing s with
  | zero => exact ⟨rfl, s.bus, rfl⟩
  | succ k ih =>
    have hin : s.optr < s.obuf.length := by omega
    have hpop : transact .rd8Dout s = { s with optr := s.optr + 1, bus := .ok8 (s.obuf.getD s.optr 0x00) } := by
      rw [transact_rd8Dout, popData_some (by omega)]
    have hscript : popDataScript (k + 1) = .rd8Dout :: popDataScript k := rfl
    obtain ⟨hbytes, b, hstate⟩ :=
      ih (s := { s with optr := s.optr + 1, bus := .ok8 (s.obuf.getD s.optr 0x00) }) hlen (by dsimp only; omega)
    rw [hscript]
    simp only [readBytes, hpop]
    refine ⟨?_, b, ?_⟩
    · rw [hbytes, List.drop_eq_getElem_cons hin, List.take_succ_cons]
      simp [State.read8, hin]
    · rw [hstate]
      simp only [Nat.add_assoc, Nat.add_comm 1]

/-- Settles O16: `readBytes_popDataScript` on the whole result, and the pop that finds nothing. -/
theorem popsDrainResult : Obligations.PopsDrainResult := by
  intro s hinv hptr r
  have hlen := hinv.obufLength
  obtain ⟨hbytes, b, hstate⟩ := readBytes_popDataScript (k := s.olen.toNat) hlen (by omega)
  rw [hptr, Nat.zero_add] at hstate
  refine ⟨?_, ?_, ?_⟩
  · rw [hbytes, hptr, List.drop_zero, ← hlen, List.take_length]
  · simp only [r, hstate]
  · simp only [r, hstate, transact_rd8Dout]
    exact popData_empty (lt_irrefl _)

end Sys2Proof.Machine
end

section
/-! SUPPORT. The inputs of a running command are frozen (R65). -/

namespace Sys2Proof.Machine

/-- What a running command reads, and the record of it (R65). -/
def State.inputs (s : State) : Vector Byte 32 × Word × Nonce × Word × List Byte × Word × RunCmd :=
  (s.key, s.keylen, s.nonce, s.noncelen, s.ibuf, s.ilen, s.runcmd)

theorem inputs_eq_iff (s t : State) :
    t.inputs = s.inputs ↔ t.key = s.key ∧ t.keylen = s.keylen ∧ t.nonce = s.nonce ∧ t.noncelen = s.noncelen ∧
      t.ibuf = s.ibuf ∧ t.ilen = s.ilen ∧ t.runcmd = s.runcmd := by
  simp only [State.inputs, Prod.mk.injEq]

theorem popData_inputs (s : State) : (popData s).inputs = s.inputs := by
  unfold popData
  split <;> rfl

/-- In `BUSY` a host instruction reads, pops, writes `CTRL` or is ignored (R65, R167). -/
theorem hostEffect_busy_inputs {i : Instr} {s t : State} (hbusy : s.phase = .busy) (h : HostEffect i s t) :
    t.inputs = s.inputs := by
  have hidle : s.phase ≠ .idle := by simp [hbusy]
  cases h with
  | read b => rfl
  | pop => exact popData_inputs s
  | ctrl v => rfl
  | keyin v => rw [pushKey_ignored hidle]; rfl
  | noncein v => rw [pushNonce_ignored hidle]; rfl
  | din v => rw [pushData_ignored hidle]; rfl
  | start => rw [startCommand, if_neg hidle]; rfl
  | startOpen => rw [startCommand, if_neg hidle]; rfl
  | clear => rw [clearCore, if_pos hbusy]; rfl
  | ignore => rfl

/-- A turn of the Engine that leaves the command running is no step (R10). -/
theorem engineTurn_eq_of_busy {s : State} (h : (engineTurn s).phase = .busy) : engineTurn s = s := by
  rcases engineTurn_cases s with ⟨_, _, he⟩ | ⟨_, _, he⟩ | ⟨_, he⟩
  · rcases (completeSeal_phase_ie s).1 with hdone | hs
    · rw [he, hdone] at h
      cases h
    · rw [he, hs]
  · rw [he, (completeOpen_phase_ie s).1] at h
    cases h
  · exact he

theorem requestTurn_inputs (s : State) : (requestTurn s).inputs = s.inputs := by
  rcases requestTurn_cases s with ⟨_, _, he⟩ | ⟨_, he⟩
  · rw [he]
    rfl
  · rw [he]

theorem rbpTurn_inputs (draw : Answer) (s : State) : (rbpTurn draw s).inputs = s.inputs := by
  rcases rbpTurn_cases draw s with ⟨_, _, he⟩ | ⟨_, _, he⟩ | ⟨_, he⟩
  · rw [he]
    rfl
  · rw [he]
    rfl
  · rw [he]

/-- A turn after which the command still runs leaves its inputs alone (R65). -/
theorem takeTurn_busy_inputs {s : State} {u : Turn} (h : (takeTurn s u).phase = .busy) :
    (takeTurn s u).inputs = s.inputs := by
  cases u with
  | engine => exact congrArg State.inputs (engineTurn_eq_of_busy h)
  | request => exact requestTurn_inputs s
  | rbp draw => exact rbpTurn_inputs draw s
  | otherRequest => rfl

/-- Whatever an event does in `BUSY`, a command that still runs has its inputs (R65). -/
theorem stepEffect_busy_inputs {s t : State} {e : Event} (h : StepEffect s e t) (hbusy : s.phase = .busy)
    (hbusy' : t.phase = .busy) : t.inputs = s.inputs := by
  cases h with
  | host _ _ ht => exact hostEffect_busy_inputs hbusy ht
  | illegal => rfl
  | outside => rfl
  | reserved => rfl
  | turn u => exact takeTurn_busy_inputs hbusy'
  | reset => cases hbusy'

/-- Settles O29: the shapes of a step keep the inputs, and of the transitions of `PHASE` (O33) only two leave `BUSY`. -/
theorem inputsFrozenInBusy : Obligations.InputsFrozenInBusy := by
  intro s t e l hbusy he hstep
  have heffect := step_stepEffect he hstep
  refine ⟨fun hbusy' => (inputs_eq_iff { s with events := l } t).mp (stepEffect_busy_inputs heffect hbusy hbusy'),
    fun hleft => ?_⟩
  have hchange : t.phase ≠ s.phase := hbusy ▸ hleft
  rcases (phaseAndCtrlTransitions s t e l he hstep).1 hchange with ⟨hidle, _⟩ | ⟨_, _, hturn⟩ | ⟨hdone, _⟩ | ⟨_, hreset⟩
  · simp [hbusy] at hidle
  · exact .inl hturn
  · simp [hbusy] at hdone
  · exact .inr hreset

end Sys2Proof.Machine
end

section
/-! SUPPORT. The words of the instructions: the word of a read, of a write and of a command decodes to its instruction and is
the only word that does; internal operations have none; the fields of a word by its value (R71, R73, R81, R82). -/

namespace Sys2Proof.Machine

/-! ## Decoding the word of an instruction -/

/-- The word of a read decodes to the read (R71, R81). -/
theorem decode_readWord (r : Reg) : decode (readWord r) = .ok (readInstr r) := by
  have hparse : decode (readWord r) = decodeTransaction ⟨false, r.size, r.offset, 0⟩ :=
    decode_htw (parseHtw_read r.size r.offset)
  rw [hparse, decodeTransaction]
  simp

/-- The word of a write decodes to the write, for a value that fits the register (R71, R81). -/
theorem decode_writeWord {r : Reg} {v : Word} (h : v >>> r.size.dataBits = 0) :
    decode (writeWord r v) = .ok (writeInstr r v) := by
  have hparse : decode (writeWord r v) = decodeTransaction ⟨true, r.size, r.offset, v⟩ :=
    decode_htw (parseHtw_write r.size r.offset v h)
  rw [hparse, decodeTransaction]
  simp

/-- Every value fits a 32-bit register. -/
theorem decode_writeWord_word {r : Reg} (hr : r.size = .b4) (v : Word) :
    decode (writeWord r v) = .ok (writeInstr r v) := by
  apply decode_writeWord
  rw [hr]
  exact BitVec.ushiftRight_eq_zero (le_refl 32)

/-- Every byte, widened, fits a byte register, which takes it back out of the word (R71). -/
theorem decode_writeWord_byte {r : Reg} {f : Byte → Instr} (hf : ∀ d, writeInstr r d = f (d.setWidth 8))
    (hr : r.size = .b1) (b : Byte) : decode (writeWord r (b.setWidth 32)) = .ok (f b) := by
  rw [decode_writeWord (by rw [hr]; exact shift_setWidth_byte b), hf]
  simp

/-- Settles O1: a host instruction is a command, a read, or the write of a 32-bit or of a byte register. -/
theorem decodeEncodeAgree : Obligations.DecodeEncodeAgree := by
  intro i hi
  cases i with
  | sealCmd | openCmd | clearCmd => exact ⟨_, rfl, rfl⟩
  | rd32Ctrl | rd32Status | rd32Cmd | rd32Keylen | rd32Noncelen | rd32Ilen | rd32Olen | rd8Keyin | rd8Noncein | rd8Din
  | rd8Dout | rd8Nonce0 | rd8Nonce1 | rd8Nonce2 | rd8Nonce3 | rd8Nonce4 | rd8Nonce5 | rd8Nonce6 | rd8Nonce7 | rd8Nonce8
  | rd8Nonce9 | rd8Nonce10 | rd8Nonce11 => exact ⟨_, rfl, decode_readWord _⟩
  | wr32Ctrl v | wr32Status v | wr32Cmd v | wr32Keylen v | wr32Noncelen v | wr32Ilen v | wr32Olen v =>
    exact ⟨_, rfl, decode_writeWord_word rfl v⟩
  | wr8Keyin b | wr8Noncein b | wr8Din b | wr8Dout b | wr8Nonce0 b | wr8Nonce1 b | wr8Nonce2 b | wr8Nonce3 b
  | wr8Nonce4 b | wr8Nonce5 b | wr8Nonce6 b | wr8Nonce7 b | wr8Nonce8 b | wr8Nonce9 b | wr8Nonce10 b | wr8Nonce11 b =>
    exact ⟨_, rfl, decode_writeWord_byte (fun _ => rfl) rfl b⟩
  | aesKeyexp | aesCipher | gcmGfmul | gcmInc32 | gcmGhash | gcmGctr | gcmInit | gcmTag | gcmTageq | ngenDraw => cases hi

/-- An instruction decodes from the word that encodes it. -/
theorem decode_of_encode {i : Instr} {w : TraceWord} (h : encode i = some w) : decode w = .ok i := by
  cases hi : i.internal with
  | false =>
    obtain ⟨w', hw', hd⟩ := decodeEncodeAgree i hi
    obtain rfl : w' = w := Option.some.inj (hw'.symm.trans h)
    exact hd
  | true => cases i <;> cases hi <;> cases h

/-- Settles O4: each word is the encoding of its instruction. -/
theorem specWordsDecode : Obligations.SpecWordsDecode :=
  ⟨decode_of_encode rfl, decode_of_encode rfl, decode_of_encode rfl, decode_of_encode rfl, decode_of_encode rfl,
    decode_of_encode rfl, decode_of_encode rfl, decode_of_encode rfl, decode_of_encode rfl⟩

/-! ## Encoding what a word decodes to -/

theorem encode_readInstr (r : Reg) : encode (readInstr r) = some (readWord r) := by
  cases r with
  | nonce i => fin_cases i <;> rfl
  | _ => rfl

/-- A value of 8 bits is its low byte, widened. -/
theorem setWidth_setWidth_of_fits_byte {v : Word} (h : v >>> AccessSize.b1.dataBits = 0) :
    (v.setWidth 8).setWidth 32 = v := by
  have hlt : v.toNat / 2 ^ 8 = 0 := by
    simpa [AccessSize.dataBits, Nat.shiftRight_eq_div_pow] using congrArg BitVec.toNat h
  apply BitVec.eq_of_toNat_eq
  simp only [BitVec.toNat_setWidth]
  omega

theorem encode_writeInstr {r : Reg} {v : Word} (h : v >>> r.size.dataBits = 0) :
    encode (writeInstr r v) = some (writeWord r v) := by
  cases r with
  | ctrl | status | cmd | keylen | noncelen | ilen | olen => rfl
  | keyin | noncein | din | dout => exact congrArg (some <| writeWord _ ·) (setWidth_setWidth_of_fits_byte h)
  | nonce i =>
    have hv := setWidth_setWidth_of_fits_byte h
    fin_cases i <;> exact congrArg (some <| writeWord _ ·) hv

theorem sizeOfCode_eq_some {c : BitVec 2} {size : AccessSize} (h : sizeOfCode c = some size) : size.code = c := by
  unfold sizeOfCode at h
  split_ifs at h with h0 h1 h2 <;> cases h <;> simp [AccessSize.code, *]

/-- The bit `W` of a word by the value of the word (R71). -/
theorem getLsbD_63_eq_decide (w : BitVec 64) : w.getLsbD 63 = decide (w.toNat / 2 ^ 63 = 1) := by
  have hlt := w.isLt
  rw [BitVec.getLsbD, Nat.testBit_eq_decide_div_mod_eq, Nat.mod_eq_of_lt (by omega)]

/-- A field of a word by the value of the word. -/
theorem toNat_extractLsb'_eq {n : Nat} (w : BitVec n) (k len : Nat) :
    (w.extractLsb' k len).toNat = w.toNat / 2 ^ k % 2 ^ len := by
  rw [BitVec.extractLsb'_toNat, Nat.shiftRight_eq_div_pow]

/-- A word whose reserved bits are zero is made of its other four fields (R71). -/
theorem htwOf_fields {w : BitVec 64} {size : AccessSize} (hsize : size.code = w.extractLsb' 61 2)
    (hzero : w.extractLsb' 40 21 = 0) :
    htwOf (w.getLsbD 63) size (w.extractLsb' 32 8) (w.extractLsb' 0 32) = w := by
  have hlt := w.isLt
  have hw : (w.getLsbD 63).toNat = w.toNat / 2 ^ 63 := by
    rw [getLsbD_63_eq_decide]
    by_cases h : w.toNat / 2 ^ 63 = 1
    · rw [decide_eq_true h, Bool.toNat_true, h]
    · rw [decide_eq_false h, Bool.toNat_false]
      omega
  have hz : w.toNat / 2 ^ 40 % 2 ^ 21 = 0 := by
    rw [← toNat_extractLsb'_eq, hzero]
    rfl
  apply BitVec.eq_of_toNat_eq
  rw [htwOf, hsize]
  simp only [toNat_append_eq_add, toNat_extractLsb'_eq, BitVec.toNat_ofBool, hw, BitVec.toNat_ofNat]
  omega

/-- The value is wider than the size that `SZ` = `c` codes (R71). -/
def TooWide (c : BitVec 2) (v : Word) : Prop := ∃ size, sizeOfCode c = some size ∧ v >>> size.dataBits ≠ 0

/-- The word breaks a rule of R71, in the order of the rules. -/
def Malformed (w : BitVec 64) : Prop :=
  sizeOfCode (w.extractLsb' 61 2) = none ∨ w.extractLsb' 40 21 ≠ 0 ∨
    (w.getLsbD 63 = true ∧ TooWide (w.extractLsb' 61 2) (w.extractLsb' 0 32)) ∨
    (w.getLsbD 63 = false ∧ w.extractLsb' 0 32 ≠ 0)

/-- Parsing a malformed word is an error of its own. -/
theorem parseHtw_malformed {w : BitVec 64} (h : Malformed w) :
    ∃ e, parseHtw w = .error e ∧ e ≠ .illegalAccess ∧ e ≠ .reservedCommand := by
  unfold parseHtw
  split
  · exact ⟨_, rfl, by simp, by simp⟩
  · next size hs =>
    split_ifs with hreserved hwrite hwide hdata
    · exact ⟨_, rfl, by simp, by simp⟩
    · exact ⟨_, rfl, by simp, by simp⟩
    · simp_all [Malformed, TooWide]
    · exact ⟨_, rfl, by simp, by simp⟩
    · simp_all [Malformed]

/-- Parsing any other word reads its fields. -/
theorem parseHtw_fields {w : BitVec 64} (h : ¬ Malformed w) :
    ∃ size, sizeOfCode (w.extractLsb' 61 2) = some size ∧
      parseHtw w = .ok ⟨w.getLsbD 63, size, w.extractLsb' 32 8, w.extractLsb' 0 32⟩ := by
  simp only [Malformed, TooWide, not_or, not_and, not_exists, not_not] at h
  obtain ⟨hsize, hreserved, hwide, hdata⟩ := h
  obtain ⟨size, hs⟩ := Option.ne_none_iff_exists'.mp hsize
  refine ⟨size, hs, ?_⟩
  unfold parseHtw
  rw [hs]
  dsimp only
  rw [if_neg (not_not.mpr hreserved)]
  split_ifs with hw hnot hnot
  · exact absurd (hwide hw size hs) hnot
  · rw [hw]
  · exact absurd (hdata (Bool.eq_false_iff.mpr hw)) hnot
  · rw [Bool.eq_false_iff.mpr hw, hdata (Bool.eq_false_iff.mpr hw)]

/-- What a transaction decodes to is encoded by the word of the transaction (R54, R71). -/
theorem encode_of_decodeTransaction {a : Transaction} {i : Instr} (h : decodeTransaction a = .ok i)
    (hfit : a.write = true → a.data >>> a.size.dataBits = 0) (hdata : a.write = false → a.data = 0) :
    encode i = some (.htw (htwOf a.write a.size a.off a.data)) := by
  obtain ⟨write, size, off, data⟩ := a
  unfold decodeTransaction at h
  cases hr : Reg.ofAccess off size with
  | none => simp [hr] at h
  | some r =>
    obtain ⟨rfl, rfl⟩ := ofAccess_eq_some hr
    simp only [hr, Except.ok.injEq] at h
    subst h
    cases write with
    | true => exact encode_writeInstr (hfit rfl)
    | false =>
      obtain rfl : data = 0 := hdata rfl
      exact encode_readInstr r

/-- Settles O2: a command by its value; a transaction word is made of the fields that were read from it. -/
theorem encodeDecodeAgree : Obligations.EncodeDecodeAgree := by
  intro w i h
  cases w with
  | command v =>
    simp only [decode, decodeCommand] at h
    split_ifs at h with h1 h2 h3 <;> cases h <;> simp [encode, *]
  | htw w =>
    by_cases hm : Malformed w
    · obtain ⟨e, hparse, _⟩ := parseHtw_malformed hm
      simp [decode, decodeHtw, hparse] at h
    · obtain ⟨size, hsize, hparse⟩ := parseHtw_fields hm
      simp only [Malformed, TooWide, not_or, not_and, not_exists, not_not] at hm
      obtain ⟨_, hzero, hfit, hdata⟩ := hm
      rw [decode_htw hparse] at h
      rw [encode_of_decodeTransaction h (fun hw => hfit hw size hsize) hdata]
      simp only [htwOf_fields (sizeOfCode_eq_some hsize) hzero]

/-! ## Internal operations -/

/-- Exactly the internal operations have no encoding (R82). -/
theorem encode_isNone (i : Instr) : (encode i).isNone = i.internal := by cases i <;> rfl

/-- What a word decodes to is no internal operation (R82). -/
theorem decode_not_internal {w : TraceWord} {i : Instr} (h : decode w = .ok i) : i.internal = false := by
  rcases decode_cases w with ⟨j, hj, hd⟩ | ⟨_, _, _, _, _, hd⟩ | ⟨_, _, hd⟩ <;> rw [hd] at h <;> cases h
  exact hj

/-- No event performs an internal operation (R82). -/
theorem event_instr_not_internal {p : Params} {e : Event} {i : Instr} (h : e.instr p = some i) :
    i.internal = false := by
  have hok {d : Except DecodeError Instr} (hd : d.toOption = some i) : d = .ok i := by
    cases d with
    | error _ => cases hd
    | ok j => exact congrArg Except.ok (Option.some.inj hd)
  cases e with
  | word w => exact decode_not_internal (hok h)
  | busAccess wr size addr data =>
    simp only [Event.instr] at h
    cases ho : busOffset p addr with
    | none => simp [ho] at h
    | some off =>
      rcases decodeTransaction_cases ⟨wr, size, off, data⟩ with ⟨j, hj, hd⟩ | hd
      · obtain rfl : j = i := Except.ok.inj (hd.symm.trans (hok (by simpa [ho] using h)))
        exact hj
      · exact absurd (hd.symm.trans (hok (by simpa [ho] using h))) (by simp)
  | turn u => cases h
  | reset => cases h

/-- Settles O3: an internal operation has no word, and no event and no string of bytes carries anything but a word. -/
theorem internalOperationsNotEncoded : Obligations.InternalOperationsNotEncoded := by
  intro i hi
  have hnot : i.internal ≠ false := by simp [hi]
  refine ⟨Option.isNone_iff_eq_none.mp (by rw [encode_isNone, hi]), fun l h => hnot ?bytes,
    fun p e h => hnot (event_instr_not_internal h)⟩
  case bytes =>
    unfold decodeBytes at h
    cases hl : traceWordOfBytes l with
    | error e => simp [hl] at h
    | ok w => exact decode_not_internal (by simpa [hl] using h)

/-! ## Malformed words -/

/-- A value fits a size exactly when it is below the power of two of its bits. -/
theorem ushiftRight_dataBits_eq_zero_iff (v : Word) (size : AccessSize) :
    v >>> size.dataBits = 0 ↔ v.toNat < 2 ^ size.dataBits := by
  rw [← BitVec.toNat_inj, BitVec.toNat_ushiftRight, Nat.shiftRight_eq_div_pow]
  exact Nat.div_eq_zero_iff_lt (Nat.two_pow_pos _)

theorem sizeOfCode_eq_none_iff (c : BitVec 2) : sizeOfCode c = none ↔ c.toNat = 3 := by
  unfold sizeOfCode
  split_ifs with h0 h1 h2
  · simp [h0]
  · simp [h1]
  · simp [h2]
  · exact iff_of_true rfl (by bv_omega)

/-- Only writes of 1 and 2 bytes can have a value that is too wide (R71). -/
theorem tooWide_iff (c : BitVec 2) (v : Word) :
    TooWide c v ↔ (c.toNat = 0 ∧ 2 ^ 8 ≤ v.toNat) ∨ (c.toNat = 1 ∧ 2 ^ 16 ≤ v.toNat) := by
  simp only [TooWide, ne_eq, ushiftRight_dataBits_eq_zero_iff, Nat.not_lt]
  constructor
  · rintro ⟨size, hs, hwide⟩
    rw [← sizeOfCode_eq_some hs]
    cases size with
    | b1 => exact .inl ⟨rfl, hwide⟩
    | b2 => exact .inr ⟨rfl, hwide⟩
    | b4 => exact absurd v.isLt (Nat.not_lt.mpr hwide)
  · rintro (⟨hc, hwide⟩ | ⟨hc, hwide⟩)
    · obtain rfl : c = 0 := BitVec.eq_of_toNat_eq hc
      exact ⟨.b1, rfl, hwide⟩
    · obtain rfl : c = 1 := BitVec.eq_of_toNat_eq hc
      exact ⟨.b2, rfl, hwide⟩

/-- The malformed words by their value (R71). -/
theorem malformed_iff (w : BitVec 64) :
    Malformed w ↔ w.toNat / 2 ^ 61 % 4 = 3 ∨ w.toNat / 2 ^ 40 % 2 ^ 21 ≠ 0 ∨
      (w.toNat / 2 ^ 63 = 1 ∧ w.toNat / 2 ^ 61 % 4 = 0 ∧ 2 ^ 8 ≤ w.toNat % 2 ^ 32) ∨
      (w.toNat / 2 ^ 63 = 1 ∧ w.toNat / 2 ^ 61 % 4 = 1 ∧ 2 ^ 16 ≤ w.toNat % 2 ^ 32) ∨
      (w.toNat / 2 ^ 63 = 0 ∧ w.toNat % 2 ^ 32 ≠ 0) := by
  have hlt := w.isLt
  have hread : ¬ w.toNat / 2 ^ 63 = 1 ↔ w.toNat / 2 ^ 63 = 0 := by omega
  simp only [Malformed, sizeOfCode_eq_none_iff, tooWide_iff, ne_eq, ← BitVec.toNat_inj, toNat_extractLsb'_eq,
    getLsbD_63_eq_decide, decide_eq_true_eq, decide_eq_false_iff_not, hread, and_or_left, or_assoc, pow_zero,
    Nat.div_one]
  rfl

/-- A step refuses a word that the decoder refuses as malformed (R71, log 11). -/
theorem step_malformed {s : State} {w : BitVec 64} {l : List Event} {e : DecodeError} (hheld : s.held = true)
    (he : s.events = .word (.htw w) :: l) (hparse : parseHtw w = .error e) (hlegal : e ≠ .illegalAccess)
    (hcommand : e ≠ .reservedCommand) : step s = .refused .malformedWord := by
  have hdecode : decode (.htw w) = .error e := by simp only [decode, decodeHtw, hparse]
  rw [step_word hheld he, hdecode]
  rcases runDecoded_cases (.error e) { s with events := l } with ⟨_, hd, _⟩ | ⟨hd, _⟩ | ⟨hd, _⟩ | ⟨_, _, _, _, hr⟩
  · cases hd
  · exact absurd (Except.error.inj hd) hlegal
  · exact absurd (Except.error.inj hd) hcommand
  · exact hr

/-- Settles O5: a malformed word does not parse, and any other parses to its fields. -/
theorem transactionWordFields : Obligations.TransactionWordFields := by
  intro w wr sz reserved off data malformed
  have hmalformed : Malformed w ↔ malformed := malformed_iff w
  refine ⟨fun h s l hheld he => ?refused, fun h => ?fields⟩
  case refused =>
    obtain ⟨e, hparse, hlegal, hcommand⟩ := parseHtw_malformed (hmalformed.mpr h)
    exact step_malformed hheld he hparse hlegal hcommand
  case fields =>
    obtain ⟨size, hsize, hparse⟩ := parseHtw_fields (hmalformed.not.mpr h)
    refine ⟨_, hparse, getLsbD_63_eq_decide w, ?_, toNat_extractLsb'_eq w 32 8, ?_⟩
    · rw [sizeOfCode_eq_some hsize]
      exact toNat_extractLsb'_eq w 61 2
    · rw [toNat_extractLsb'_eq, pow_zero, Nat.div_one]

/-! ## `STATUS` -/

/-- `STATUS` is the sum of its fields at their places (R23, R75). -/
theorem status_toNat (s : State) :
    s.status.toNat = s.phase.code.toNat + 4 * s.proto.toNat + 8 * s.irq.toNat + 16 * s.err.code.toNat := by
  have hphase := s.phase.code.isLt
  have hproto := s.proto.toNat_le
  have hirq := s.irq.toNat_le
  have herr := s.err.code.isLt
  rw [status_eq_ofNat, BitVec.toNat_ofNat, Nat.mod_eq_of_lt (by omega)]

/-- Settles O22: each field is read off the sum by its bounds. -/
theorem statusLayout : Obligations.StatusLayout := by
  intro s
  have hsum := status_toNat s
  have hphase := s.phase.code.isLt
  have hproto := s.proto.toNat_le
  have hirq := s.irq.toNat_le
  refine ⟨?phase, ?proto, ?irq, ?err⟩
  case phase =>
    have hfield : s.status.toNat % 4 = s.phase.code.toNat := by omega
    rw [hfield]
    cases s.phase <;> rfl
  case proto => omega
  case irq =>
    have hfield : s.status.toNat / 8 % 2 = s.irq.toNat := by omega
    exact hfield
  case err =>
    have hfield : s.status.toNat / 16 = s.err.code.toNat := by omega
    rw [hfield]
    cases s.err <;> rfl

end Sys2Proof.Machine
end

section
/-! SUPPORT. Turns around a running command: what they keep, that reading `STATUS` between them changes nothing they do, and
the state after any sequence of them (R10, R36, R131, R138). -/

namespace Sys2Proof.Machine

/-! ## What a turn keeps -/

/-- What neither a turn nor a command touches but for its answer to the host: `CTRL`, the parameters, the latest result and
the events to come. -/
def State.frame (s : State) : Bool × Params × OpResult × List Event := (s.ie, s.params, s.result, s.events)

theorem completeSeal_frame (s : State) : (completeSeal s).frame = s.frame := by
  rcases completeSeal_cases s with ⟨_, _, he⟩ | ⟨_, _, he⟩ | ⟨_, _, he⟩ | ⟨_, _, _, he⟩ <;> rw [he] <;> rfl

theorem completeOpen_frame (s : State) : (completeOpen s).frame = s.frame := by
  rcases completeOpen_cases s with ⟨_, _, he⟩ | ⟨_, _, he⟩ | ⟨_, _, _, he⟩ <;> rw [he] <;> rfl

theorem engineTurn_frame (s : State) : (engineTurn s).frame = s.frame := by
  rcases engineTurn_cases s with ⟨_, _, he⟩ | ⟨_, _, he⟩ | ⟨_, he⟩ <;> rw [he]
  · exact completeSeal_frame s
  · exact completeOpen_frame s

/-- A turn of the Engine is no request (R131). -/
theorem engineTurn_rbpRequests (s : State) : (engineTurn s).rbpRequests = s.rbpRequests := by
  rcases engineTurn_cases s with ⟨_, _, he⟩ | ⟨_, _, he⟩ | ⟨_, he⟩ <;> rw [he]
  · rcases completeSeal_cases s with ⟨_, _, he⟩ | ⟨_, _, he⟩ | ⟨_, _, he⟩ | ⟨_, _, _, he⟩ <;> rw [he] <;> rfl
  · rcases completeOpen_cases s with ⟨_, _, he⟩ | ⟨_, _, he⟩ | ⟨_, _, _, he⟩ <;> rw [he] <;> rfl

/-! ## `Complete`, an equation per case -/

theorem completeSeal_check {s : State} {e : ErrCode} (h : sealCheck s = some e) : completeSeal s = raiseError e s := by
  rw [completeSeal, h]

theorem completeSeal_unanswered {s : State} (h : sealCheck s = none) (ha : ∀ a, s.rbpReq ≠ .answered a) :
    completeSeal s = s := by
  rw [completeSeal, h]
  cases hr : s.rbpReq with
  | idle => rfl
  | waiting k => rfl
  | answered a => exact absurd hr (ha a)

theorem completeSeal_fail {s : State} (h : sealCheck s = none) (ha : s.rbpReq = .answered .fail) :
    completeSeal s = raiseError .randomnessFailure s := by
  rw [completeSeal, h, ha]

theorem completeSeal_ok {s : State} {n : Nonce} (h : sealCheck s = none) (ha : s.rbpReq = .answered (.ok n)) :
    completeSeal s = commitSeal n (gcmAe (cipherUnder s.keyBytes) n s.message) s := by
  rw [completeSeal, h, ha]
  exact sealWith_eq (sealCheck_none h).1 n

theorem completeOpen_check {s : State} {e : ErrCode} (h : openCheck s = some e) : completeOpen s = raiseError e s := by
  rw [completeOpen, h]

theorem completeOpen_reject {s : State} (h : openCheck s = none)
    (hg : gcmAd (cipherUnder s.keyBytes) s.nonce s.message = none) :
    completeOpen s = raiseError .authenticationFailure s := by
  rcases completeOpen_cases s with ⟨_, hc, _⟩ | ⟨_, _, he⟩ | ⟨_, _, hp, _⟩
  · exact absurd (h.symm.trans hc) (by simp)
  · exact he
  · exact absurd (hg.symm.trans hp) (by simp)

theorem completeOpen_accept {s : State} {p : List Byte} (h : openCheck s = none)
    (hg : gcmAd (cipherUnder s.keyBytes) s.nonce s.message = some p) : completeOpen s = commitResult p s := by
  rcases completeOpen_cases s with ⟨_, hc, _⟩ | ⟨_, hn, _⟩ | ⟨q, _, hq, he⟩
  · exact absurd (h.symm.trans hc) (by simp)
  · exact absurd (hg.symm.trans hn) (by simp)
  · obtain rfl : p = q := Option.some.inj (hg.symm.trans hq)
    exact he

/-! ## The Engine reads neither the response nor the count -/

/-- `s` with its response and its count of requests changed. -/
def State.observed (f : BusResponse → BusResponse) (g : Nat → Nat) (s : State) : State :=
  { s with bus := f s.bus, rbpRequests := g s.rbpRequests }

theorem completeSeal_observed (f : BusResponse → BusResponse) (g : Nat → Nat) (s : State) :
    completeSeal (s.observed f g) = (completeSeal s).observed f g := by
  cases hc : sealCheck s with
  | some e =>
    rw [completeSeal_check hc, completeSeal_check (s := s.observed f g) hc]
    rfl
  | none =>
    by_cases ha : ∀ a, s.rbpReq ≠ .answered a
    · rw [completeSeal_unanswered hc ha, completeSeal_unanswered (s := s.observed f g) hc ha]
    · simp only [not_forall, not_not] at ha
      obtain ⟨a, ha⟩ := ha
      cases a with
      | fail =>
        rw [completeSeal_fail hc ha, completeSeal_fail (s := s.observed f g) hc ha]
        rfl
      | ok m =>
        rw [completeSeal_ok hc ha, completeSeal_ok (s := s.observed f g) hc ha]
        rfl

theorem completeOpen_observed (f : BusResponse → BusResponse) (g : Nat → Nat) (s : State) :
    completeOpen (s.observed f g) = (completeOpen s).observed f g := by
  cases hc : openCheck s with
  | some e =>
    rw [completeOpen_check hc, completeOpen_check (s := s.observed f g) hc]
    rfl
  | none =>
    cases hg : gcmAd (cipherUnder s.keyBytes) s.nonce s.message with
    | none =>
      rw [completeOpen_reject hc hg, completeOpen_reject (s := s.observed f g) hc hg]
      rfl
    | some p =>
      rw [completeOpen_accept hc hg, completeOpen_accept (s := s.observed f g) hc hg]
      rfl

theorem engineTurn_sealing {s : State} (hp : s.phase = .busy) (hr : s.runcmd = .sealing) :
    engineTurn s = completeSeal s := by
  rw [engineTurn, if_pos hp, hr]

theorem engineTurn_opening {s : State} (hp : s.phase = .busy) (hr : s.runcmd = .opening) :
    engineTurn s = completeOpen s := by
  rw [engineTurn, if_pos hp, hr]

theorem engineTurn_no_command {s : State} (h : s.phase ≠ .busy ∨ s.runcmd = .none) : engineTurn s = s := by
  rcases h with hp | hr
  · exact engineTurn_not_busy hp
  · rw [engineTurn, hr]
    exact ite_self s

theorem engineTurn_observed (f : BusResponse → BusResponse) (g : Nat → Nat) (s : State) :
    engineTurn (s.observed f g) = (engineTurn s).observed f g := by
  rcases engineTurn_cases s with ⟨hp, hr, he⟩ | ⟨hp, hr, he⟩ | ⟨hn, he⟩ <;> rw [he]
  · rw [engineTurn_sealing (s := s.observed f g) hp hr, completeSeal_observed]
  · rw [engineTurn_opening (s := s.observed f g) hp hr, completeOpen_observed]
  · exact engineTurn_no_command (s := s.observed f g) hn

/-- An answer to the host between two turns changes nothing that they do (R56). -/
theorem takeTurn_respond (s : State) (b : BusResponse) (u : Turn) :
    takeTurn (s.respond b) u = (takeTurn s u).respond b := by
  cases u with
  | engine => exact engineTurn_observed (fun _ => b) id s
  | request =>
    rcases requestTurn_cases s with ⟨hp, hi, he⟩ | ⟨hn, he⟩
    · rw [takeTurn, takeTurn, he, requestTurn_pending (s := s.respond b) hp hi]
      rfl
    · rw [takeTurn, takeTurn, he]
      exact requestTurn_nothing_to_receive (s := s.respond b) (hn.imp_left Bool.eq_false_iff.mp)
  | rbp d =>
    rcases rbpTurn_cases d s with ⟨hp, hi, he⟩ | ⟨k, hk, he⟩ | ⟨hn, he⟩
    · rw [takeTurn, takeTurn, he, rbpTurn_pending (s := s.respond b) d hp hi]
      rfl
    · rw [takeTurn, takeTurn, he, rbpTurn_waiting (s := s.respond b) d hk]
      rfl
    · rw [takeTurn, takeTurn, he]
      exact rbpTurn_nothing_to_answer (s := s.respond b) d (hn.imp_left (And.imp_left Bool.eq_false_iff.mp))
  | otherRequest => rfl

theorem takeTurns_respond (l : List Turn) (s : State) (b : BusResponse) :
    takeTurns l (s.respond b) = (takeTurns l s).respond b := by
  induction l generalizing s with
  | nil => rfl
  | cons u l ih => rw [takeTurns_cons, takeTurns_cons, takeTurn_respond, ih]

/-! ## Waiting -/

/-- Once `DONE`, no turn changes `PHASE` (R22). -/
theorem takeTurns_done {s : State} (h : s.phase = .done) (l : List Turn) : (takeTurns l s).phase = .done := by
  induction l generalizing s with
  | nil => exact h
  | cons u l ih =>
    refine ih ?_
    rcases takeTurn_phase s u with hsame | ⟨_, hdone, _⟩
    · exact hsame.trans h
    · exact hdone

/-- The read of `STATUS` that ends a wait: its value, and the state after it (R80). -/
def readStatus (s : State) : Word × State := (s.status, s.respond (.ok32 s.status))

theorem status_phase (s : State) : s.status.extractLsb' 0 2 = s.phase.code := by
  have hphase := s.phase.code.isLt
  apply BitVec.eq_of_toNat_eq
  rw [toNat_extractLsb'_eq, status_toNat]
  omega

theorem status_err (s : State) : s.status.extractLsb' 4 4 = s.err.code := by
  have hphase := s.phase.code.isLt
  have hproto := s.proto.toNat_le
  have hirq := s.irq.toNat_le
  have herr := s.err.code.isLt
  apply BitVec.eq_of_toNat_eq
  rw [toNat_extractLsb'_eq, status_toNat]
  omega

theorem phase_code_eq_two_iff (p : Phase) : p.code = 2 ↔ p = .done := by cases p <;> decide

@[simp] theorem errOfCode_code (e : ErrCode) : errOfCode e.code = some e := by cases e <;> rfl

theorem waitDone_cons (turns : List Turn) (rest : List (List Turn)) (s : State) :
    waitDone (turns :: rest) s =
      if (takeTurns turns s).phase = .done then some (readStatus (takeTurns turns s))
      else waitDone rest ((takeTurns turns s).respond (.ok32 (takeTurns turns s).status)) := by
  simp only [← phase_code_eq_two_iff, ← status_phase]
  rfl

/-- `WAITDONE` ends at the first read of `STATUS` with `PHASE` = `DONE` (R80). -/
theorem waitDone_eq_some {used : List (List Turn)} (unused : List (List Turn)) {s : State}
    (hdone : (takeTurns used.flatten s).phase = .done) (hbefore : (takeTurns used.dropLast.flatten s).phase ≠ .done) :
    waitDone (used ++ unused) s = some (readStatus (takeTurns used.flatten s)) := by
  induction used generalizing s with
  | nil => exact absurd hdone hbefore
  | cons turns used ih =>
    rw [List.cons_append, waitDone_cons]
    cases used with
    | nil =>
      simp only [List.flatten_cons, List.flatten_nil, List.append_nil] at hdone ⊢
      rw [if_pos hdone]
    | cons next used =>
      rw [List.flatten_cons, takeTurns_append] at hdone ⊢
      rw [List.dropLast_cons_cons, List.flatten_cons, takeTurns_append] at hbefore
      have hnot : (takeTurns turns s).phase ≠ .done := fun h => hbefore (takeTurns_done h _)
      rw [if_neg hnot, ih]
      · rw [takeTurns_respond]
        rfl
      · rw [takeTurns_respond]; exact hdone
      · rw [takeTurns_respond]; exact hbefore

/-- `WAITDONE` goes on while the turns have not led to `DONE` (log 16). -/
theorem waitDone_eq_none {sched : List (List Turn)} {s : State} (h : (takeTurns sched.flatten s).phase ≠ .done) :
    waitDone sched s = none := by
  induction sched generalizing s with
  | nil => rfl
  | cons turns rest ih =>
    rw [List.flatten_cons, takeTurns_append] at h
    have hnot : (takeTurns turns s).phase ≠ .done := fun hd => h (takeTurns_done hd _)
    rw [waitDone_cons, if_neg hnot, ih]
    rw [takeTurns_respond]
    exact h

theorem irq_eq_true_iff_done {s : State} (hie : s.ie = true) : s.irq = true ↔ s.phase = .done := by simp [irq_iff, hie]

/-- With `IE` = 1 the wait for `irq` ends at the first turn that leads to `DONE` (R32, R184). -/
theorem waitIrq_eq_some {used : List Turn} (unused : List Turn) {s : State} (hie : s.ie = true)
    (hdone : (takeTurns used s).phase = .done) (hbefore : (takeTurns used.dropLast s).phase ≠ .done) :
    waitIrq (used ++ unused) s = some (takeTurns used s) := by
  induction used generalizing s with
  | nil => exact absurd hdone hbefore
  | cons u used ih =>
    have hnow : ¬ s.irq = true := fun h => hbefore (takeTurns_done ((irq_eq_true_iff_done hie).mp h) _)
    have hie' : (takeTurn s u).ie = true := (takeTurn_ie s u).trans hie
    rw [List.cons_append, waitIrq, if_neg hnow]
    cases used with
    | nil =>
      have hirq : (takeTurn s u).irq = true := (irq_eq_true_iff_done hie').mpr hdone
      cases unused <;> exact if_pos hirq
    | cons next used => exact ih hie' hdone hbefore

theorem waitIrq_eq_none {l : List Turn} {s : State} (hie : s.ie = true) (h : (takeTurns l s).phase ≠ .done) :
    waitIrq l s = none := by
  have hnow : ¬ s.irq = true := fun hi => h (takeTurns_done ((irq_eq_true_iff_done hie).mp hi) _)
  induction l generalizing s with
  | nil => exact if_neg hnow
  | cons u l ih =>
    have hie' : (takeTurn s u).ie = true := (takeTurn_ie s u).trans hie
    rw [waitIrq, if_neg hnow]
    exact ih hie' h fun hi => h (takeTurns_done ((irq_eq_true_iff_done hie').mp hi) _)

section
variable {α : Type} {finish : Word × State → α} {result : List Turn → α} {ends : List Turn → Prop} {t : State}

/-- A driver that polls `STATUS`: the turns that end its command end its wait, at the first read after them (R80). -/
theorem polling_driver (hends : ∀ l, ends l ↔ (takeTurns l t).phase = .done)
    (hresult : ∀ l, ends l → finish (readStatus (takeTurns l t)) = result l) (sched : List (List Turn)) :
    (∀ used unused, sched = used ++ unused → ends used.flatten → ¬ ends used.dropLast.flatten →
      (waitDone sched t).map finish = some (result used.flatten)) ∧
    (¬ ends sched.flatten → (waitDone sched t).map finish = none) := by
  refine ⟨?_, fun hnot => ?_⟩
  · rintro used unused rfl hend hbefore
    rw [waitDone_eq_some unused ((hends _).mp hend) ((hends _).not.mp hbefore), Option.map_some, hresult _ hend]
  · rw [waitDone_eq_none ((hends _).not.mp hnot), Option.map_none]

/-- A driver that waits for `irq`: the turns that end its command end its wait (R184). -/
theorem irq_driver (hie : t.ie = true) (hends : ∀ l, ends l ↔ (takeTurns l t).phase = .done)
    (hresult : ∀ l, ends l → finish (readStatus (takeTurns l t)) = result l) (turns : List Turn) :
    (∀ used unused, turns = used ++ unused → ends used → ¬ ends used.dropLast →
      (waitIrqStatus turns t).map finish = some (result used)) ∧
    (¬ ends turns → (waitIrqStatus turns t).map finish = none) := by
  refine ⟨?_, fun hnot => ?_⟩
  · rintro used unused rfl hend hbefore
    rw [waitIrqStatus, waitIrq_eq_some unused hie ((hends _).mp hend) ((hends _).not.mp hbefore), ← hresult _ hend]
    rfl
  · rw [waitIrqStatus, waitIrq_eq_none hie ((hends _).not.mp hnot)]
    rfl

end

/-! ## Any sequence of turns around a running command -/

/-- `s` after `n` more requests to the RBP. -/
def State.addRequests (n : Nat) (s : State) : State := { s with rbpRequests := s.rbpRequests + n }

theorem engineTurn_addRequests (n : Nat) (s : State) :
    engineTurn (s.addRequests n) = (engineTurn s).addRequests n := engineTurn_observed id (· + n) s

theorem addRequests_addRequests (m n : Nat) (s : State) : (s.addRequests m).addRequests n = s.addRequests (n + m) := by
  simp only [State.addRequests, Nat.add_assoc, Nat.add_comm m]

theorem addRequests_inv {s : State} (h : s.Inv) (n : Nat) : (s.addRequests n).Inv :=
  { h with
    requestCounted := fun k hk => Nat.lt_add_right n (h.requestCounted k hk)
    scratch := { h.scratch with } }

/-- The RBP has nothing to receive and nothing to answer: no draw is pending, or it has answered it. -/
def State.RbpSettled (s : State) : Prop := (s.drawPending ≠ true ∧ s.rbpReq = .idle) ∨ ∃ a, s.rbpReq = .answered a

theorem rbpSettled_done {s : State} (h : s.Inv) (hdone : s.phase = .done) : s.RbpSettled :=
  .inl ⟨fun hp => absurd (((drawPending_iff s).mp hp).1.symm.trans hdone) (by simp), h.rbpReq_idle (by simp [hdone])⟩

/-- When the RBP is settled and the Engine's turn ends the command, its first turn does, and the other turns only count the
requests that come from elsewhere (R138). -/
theorem takeTurns_settled {s : State} (h : s.Inv) (hrbp : s.RbpSettled) (hdone : (engineTurn s).phase = .done)
    (l : List Turn) :
    takeTurns l s = (if .engine ∈ l then engineTurn s else s).addRequests (l.count .otherRequest) := by
  induction l generalizing s with
  | nil => rfl
  | cons u l ih =>
    rw [takeTurns_cons]
    cases u with
    | engine =>
      have hstays : engineTurn (engineTurn s) = engineTurn s := engineTurn_not_busy (by simp [hdone])
      rw [takeTurn, ih h.engineTurn (rbpSettled_done h.engineTurn hdone) (by rw [hstays, hdone]), hstays, ite_self]
      simp
    | request =>
      have hsame : takeTurn s .request = s :=
        requestTurn_nothing_to_receive (hrbp.imp (·.1) fun ⟨a, ha⟩ => by simp [ha])
      rw [hsame, ih h hrbp hdone]
      simp
    | rbp d =>
      have hsame : takeTurn s (.rbp d) = s := rbpTurn_nothing_to_answer d hrbp
      rw [hsame, ih h hrbp hdone]
      simp
    | otherRequest =>
      have hturn : takeTurn s .otherRequest = s.addRequests 1 := rfl
      rw [hturn, ih (addRequests_inv h 1) hrbp (by rw [engineTurn_addRequests]; exact hdone), engineTurn_addRequests]
      simp only [List.mem_cons, reduceCtorEq, false_or, List.count_cons_self, ← addRequests_addRequests]
      split_ifs <;> rfl

theorem engine_mem_iff_done {s : State} (h : s.Inv) (hrbp : s.RbpSettled) (hbusy : s.phase = .busy)
    (hdone : (engineTurn s).phase = .done) (l : List Turn) : .engine ∈ l ↔ (takeTurns l s).phase = .done := by
  rw [takeTurns_settled h hrbp hdone]
  split_ifs with hl
  · exact iff_of_true hl hdone
  · exact iff_of_false hl fun hd => absurd (hbusy.symm.trans hd) (by simp)

/-! ## Any sequence of turns around a `SEAL` that draws -/

/-- The RBP answers and the Engine has a turn after that: what ends a `SEAL` that draws (R135). -/
def AnswerThenEngine (l : List Turn) : Prop := ∃ d, [.rbp d, .engine].Sublist l

theorem answerThenEngine_rbp (d : Answer) (l : List Turn) : AnswerThenEngine (.rbp d :: l) ↔ .engine ∈ l := by
  constructor
  · rintro ⟨d', h⟩
    exact (List.singleton_sublist.mp h.tail)
  · exact fun h => ⟨d, (List.singleton_sublist.mpr h).cons_cons _⟩

theorem answerThenEngine_cons {u : Turn} (hu : ∀ d, u ≠ .rbp d) (l : List Turn) :
    AnswerThenEngine (u :: l) ↔ AnswerThenEngine l := by
  constructor
  · rintro ⟨d, h⟩
    cases h with
    | cons _ h => exact ⟨d, h⟩
    | cons_cons _ h => exact absurd rfl (hu d)
  · exact fun ⟨d, h⟩ => ⟨d, h.cons u⟩

/-- `s` with the RBP's answer to the request that is pending. -/
def State.withAnswer (a : Answer) (s : State) : State := { s with rbpReq := .answered a }

/-- The answer enables `Complete` (R135). -/
theorem engineTurn_withAnswer_done {s : State} (hp : s.drawPending = true) (a : Answer) :
    (engineTurn (s.withAnswer a)).phase = .done := by
  obtain ⟨hbusy, hsealing, hcheck⟩ := (drawPending_iff s).mp hp
  rw [engineTurn_sealing (s := s.withAnswer a) hbusy hsealing]
  cases a with
  | fail => rw [completeSeal_fail (s := s.withAnswer .fail) hcheck rfl]; rfl
  | ok n => rw [completeSeal_ok (s := s.withAnswer (.ok n)) hcheck rfl]; rfl

/-- The RBP has answered a `SEAL`: it ends with that answer at the Engine's first turn. -/
theorem takeTurns_withAnswer {s : State} {a : Answer} (h : (s.withAnswer a).Inv) (hp : s.drawPending = true)
    (l : List Turn) :
    (.engine ∈ l → takeTurns l (s.withAnswer a) =
      (engineTurn (s.withAnswer a)).addRequests (l.count .otherRequest)) ∧
    (.engine ∉ l → (takeTurns l (s.withAnswer a)).phase = .busy) := by
  have hall := takeTurns_settled h (.inr ⟨a, rfl⟩) (engineTurn_withAnswer_done hp a) l
  refine ⟨fun hl => by rw [hall, if_pos hl], fun hl => ?_⟩
  rw [hall, if_neg hl]
  exact ((drawPending_iff s).mp hp).1

/-- The RBP has received the request of a `SEAL` as its request `k`: the `SEAL` ends with the answer to that number. -/
theorem takeTurns_waiting {s : State} {k : Nat} (h : s.Inv) (hp : s.drawPending = true) (hw : s.rbpReq = .waiting k)
    (l : List Turn) :
    (AnswerThenEngine l → takeTurns l s =
      (engineTurn (s.withAnswer (providerAnswer s.params.rbp k (firstDraw l)))).addRequests (l.count .otherRequest)) ∧
    (¬ AnswerThenEngine l → (takeTurns l s).phase = .busy) := by
  induction l generalizing s with
  | nil => exact ⟨fun ⟨_, hl⟩ => by simp at hl, fun _ => ((drawPending_iff s).mp hp).1⟩
  | cons u l ih =>
    rw [takeTurns_cons]
    cases u with
    | engine =>
      have hsame : takeTurn s .engine = s := engineTurn_awaiting_answer hp (by simp [hw])
      rw [hsame, answerThenEngine_cons (by simp), List.count_cons_of_ne (by simp)]
      exact ih h hp hw
    | request =>
      have hsame : takeTurn s .request = s := requestTurn_nothing_to_receive (.inr (by simp [hw]))
      rw [hsame, answerThenEngine_cons (by simp), List.count_cons_of_ne (by simp)]
      exact ih h hp hw
    | rbp d =>
      have hturn : takeTurn s (.rbp d) = s.withAnswer (providerAnswer s.params.rbp k d) := rbpTurn_waiting d hw
      rw [hturn, answerThenEngine_rbp, List.count_cons_of_ne (by simp)]
      exact takeTurns_withAnswer (hturn ▸ h.takeTurn (.rbp d)) hp l
    | otherRequest =>
      have hturn : takeTurn s .otherRequest = s.addRequests 1 := rfl
      rw [hturn, answerThenEngine_cons (by simp), List.count_cons_self, ← addRequests_addRequests,
        ← engineTurn_addRequests]
      exact ih (addRequests_inv h 1) hp hw

/-- The request of a `SEAL` is pending: it gets the RBP's next number after the requests from elsewhere that come
first, and the `SEAL` ends with the answer to that number (R131, R138). -/
theorem takeTurns_drawing {s : State} (h : s.Inv) (hp : s.drawPending = true) (hi : s.rbpReq = .idle)
    (l : List Turn) :
    (AnswerThenEngine l → takeTurns l s =
      (engineTurn (s.withAnswer (providerAnswer s.params.rbp (requestNumber s.rbpRequests l) (firstDraw l)))).addRequests
        (l.count .otherRequest + 1)) ∧
    (¬ AnswerThenEngine l → (takeTurns l s).phase = .busy) := by
  induction l generalizing s with
  | nil => exact ⟨fun ⟨_, hl⟩ => by simp at hl, fun _ => ((drawPending_iff s).mp hp).1⟩
  | cons u l ih =>
    rw [takeTurns_cons]
    cases u with
    | engine =>
      have hsame : takeTurn s .engine = s := engineTurn_awaiting_answer hp (by simp [hi])
      rw [hsame, answerThenEngine_cons (by simp), List.count_cons_of_ne (by simp)]
      exact ih h hp hi
    | request =>
      have hturn : takeTurn s .request = issueRequest s := requestTurn_pending hp hi
      rw [hturn, answerThenEngine_cons (by simp), List.count_cons_of_ne (by simp), ← addRequests_addRequests,
        ← engineTurn_addRequests]
      exact takeTurns_waiting (s := issueRequest s) (hturn ▸ h.takeTurn .request) hp rfl l
    | rbp d =>
      have hturn : takeTurn s (.rbp d) =
          (s.addRequests 1).withAnswer (providerAnswer s.params.rbp s.rbpRequests d) := rbpTurn_pending d hp hi
      rw [hturn, answerThenEngine_rbp, List.count_cons_of_ne (by simp), ← addRequests_addRequests,
        ← engineTurn_addRequests]
      exact takeTurns_withAnswer (s := s.addRequests 1) (hturn ▸ h.takeTurn (.rbp d)) hp l
    | otherRequest =>
      have hturn : takeTurn s .otherRequest = s.addRequests 1 := rfl
      rw [hturn, answerThenEngine_cons (by simp), List.count_cons_self, ← addRequests_addRequests,
        ← engineTurn_addRequests]
      exact ih (addRequests_inv h 1) hp hi

end Sys2Proof.Machine
end

section
/-! SUPPORT. The scripts of the drivers: what pushing whole strings leaves, the state in which a driver's command runs, and
what the reads and the `CLEAR` after it return and leave (R79, R80, R184, R185). -/

namespace Sys2Proof.Machine

/-! ## Scripts -/

theorem runScript_append (k l : List Instr) (s : State) : runScript (k ++ l) s = runScript l (runScript k s) :=
  List.foldl_append

theorem runScript_cons (i : Instr) (l : List Instr) (s : State) : runScript (i :: l) s = runScript l (transact i s) := rfl

/-- A host script keeps the invariant. -/
theorem runScript_inv {l : List Instr} (hl : ∀ i ∈ l, i.internal = false) {s : State} (h : s.Inv) :
    (runScript l s).Inv := by
  induction l generalizing s with
  | nil => exact h
  | cons i l ih =>
    obtain ⟨t, ht, heffect⟩ := exec_host (hl i List.mem_cons_self) s
    have hi : transact i s = t := by rw [transact, ht]
    rw [runScript_cons, hi]
    exact ih (fun j hj => hl j (List.mem_cons_of_mem i hj)) (h.hostEffect heffect)

/-! ## Pushing strings -/

/-- A register of `m` bytes and its count after the string `l` has been pushed on it, empty and holding `old` before: the
bytes beyond `m` are dropped and the count saturates at `m` + 1 (R26, R29, R163, R164). -/
def Pushed {m : Nat} (old v : Vector Byte m) (n : Nat) (l : List Byte) : Prop :=
  n = min l.length (m + 1) ∧ ∀ i, (h : i < m) → v[i] = l.getD i old[i]

theorem pushed_nil {m : Nat} (v : Vector Byte m) : Pushed v v 0 [] := ⟨by simp, fun _ _ => rfl⟩

theorem Pushed.push {m n : Nat} {old v : Vector Byte m} {l : List Byte} (h : Pushed old v n l) (b : Byte) :
    Pushed old (v.setIfInBounds n b) (min (n + 1) (m + 1)) (l ++ [b]) := by
  obtain ⟨hn, hv⟩ := h
  refine ⟨by rw [List.length_append, List.length_singleton]; omega, fun i hi => ?_⟩
  rw [Vector.getElem_setIfInBounds hi]
  by_cases hl : i < l.length
  · rw [if_neg (by omega), hv i hi, List.getD_append _ _ _ _ hl]
  · rw [List.getD_append_right _ _ _ _ (Nat.not_lt.mp hl)]
    by_cases he : i = l.length
    · rw [if_pos (by omega)]
      simp [he]
    · rw [if_neg (by omega), hv i hi, List.getD_eq_default _ _ (by omega), List.getD_eq_default _ _ (by simp; omega)]

/-- A string that fits the register is the bytes below the count (R26). -/
theorem Pushed.take {m n : Nat} {old v : Vector Byte m} {l : List Byte} (h : Pushed old v n l) (hl : l.length ≤ m) :
    v.toList.take n = l := by
  obtain ⟨rfl, hv⟩ := h
  apply List.ext_getElem
  · simp; omega
  · intro i h1 h2
    simp [hv i (by omega), h2]

/-- `s` with other contents of the key register, answered as a push is. -/
def State.withKey (key : Vector Byte 32) (keylen : Word) (bus : BusResponse) (s : State) : State :=
  { s with key := key, keylen := keylen, bus := bus }

/-- `s` with other contents of the nonce register, answered as a push is. -/
def State.withNonce (nonce : Nonce) (noncelen : Word) (bus : BusResponse) (s : State) : State :=
  { s with nonce := nonce, noncelen := noncelen, bus := bus }

/-- `s` with other contents of the input buffer, answered as a push is. -/
def State.withInput (ibuf : List Byte) (ilen : Word) (bus : BusResponse) (s : State) : State :=
  { s with ibuf := ibuf, ilen := ilen, bus := bus }

theorem runScript_pushKeyScript (l : List Byte) {s : State} (hp : s.phase = .idle) {old : Vector Byte 32}
    {l₀ : List Byte} (h : Pushed old s.key s.keylen.toNat l₀) :
    ∃ key keylen bus, runScript (pushKeyScript l) s = s.withKey key keylen bus ∧
      Pushed old key keylen.toNat (l₀ ++ l) := by
  induction l generalizing s l₀ with
  | nil => exact ⟨s.key, s.keylen, s.bus, rfl, by rwa [List.append_nil]⟩
  | cons b l ih =>
    have hpush : transact (.wr8Keyin b) s = s.withKey (s.key.setIfInBounds s.keylen.toNat b)
        (BitVec.ofNat 32 (min (s.keylen.toNat + 1) 33)) .okWrite := pushKey_idle hp
    have hnext := h.push b
    rw [← toNat_saturated _ _ (by omega)] at hnext
    rw [pushKeyScript, List.map_cons, runScript_cons, hpush, List.append_cons l₀ b l]
    apply ih
    · exact hp
    · exact hnext

theorem runScript_pushNonceScript (l : List Byte) {s : State} (hp : s.phase = .idle) {old : Nonce}
    {l₀ : List Byte} (h : Pushed old s.nonce s.noncelen.toNat l₀) :
    ∃ nonce noncelen bus, runScript (pushNonceScript l) s = s.withNonce nonce noncelen bus ∧
      Pushed old nonce noncelen.toNat (l₀ ++ l) := by
  induction l generalizing s l₀ with
  | nil => exact ⟨s.nonce, s.noncelen, s.bus, rfl, by rwa [List.append_nil]⟩
  | cons b l ih =>
    have hpush : transact (.wr8Noncein b) s = s.withNonce (s.nonce.setIfInBounds s.noncelen.toNat b)
        (BitVec.ofNat 32 (min (s.noncelen.toNat + 1) 13)) .okWrite := pushNonce_idle hp
    have hnext := h.push b
    rw [← toNat_saturated _ _ (by omega)] at hnext
    rw [pushNonceScript, List.map_cons, runScript_cons, hpush, List.append_cons l₀ b l]
    apply ih
    · exact hp
    · exact hnext

/-- `IBUF` keeps the first `BUF_BYTES` bytes and `ILEN` saturates one beyond (R27, R165). -/
theorem runScript_pushDataScript (l : List Byte) {s : State} (hp : s.phase = .idle) {l₀ : List Byte}
    (hbuf : s.ibuf = l₀.take s.params.bufBytes) (hlen : s.ilen.toNat = min l₀.length (s.params.bufBytes + 1)) :
    ∃ ilen bus, runScript (pushDataScript l) s = s.withInput ((l₀ ++ l).take s.params.bufBytes) ilen bus ∧
      ilen.toNat = min (l₀ ++ l).length (s.params.bufBytes + 1) := by
  induction l generalizing s l₀ with
  | nil =>
    rw [List.append_nil, ← hbuf]
    exact ⟨s.ilen, s.bus, rfl, hlen⟩
  | cons b l ih =>
    have hkept : (if s.ilen.toNat < s.params.bufBytes then s.ibuf ++ [b] else s.ibuf) =
        (l₀ ++ [b]).take s.params.bufBytes := by
      split_ifs with hroom
      · rw [hbuf, List.take_of_length_le (by omega), List.take_of_length_le (by simp; omega)]
      · rw [hbuf, List.take_append_of_le_length (by omega)]
    have hpush : transact (.wr8Din b) s = s.withInput ((l₀ ++ [b]).take s.params.bufBytes)
        (BitVec.ofNat 32 (min (s.ilen.toNat + 1) (s.params.bufBytes + 1))) .okWrite :=
      (pushData_idle hp).trans (by rw [hkept]; rfl)
    have hcount := toNat_saturated (s.ilen.toNat + 1) (s.params.bufBytes + 1) (bufBytes_lt s.params)
    rw [pushDataScript, List.map_cons, runScript_cons, hpush, List.append_cons l₀ b l]
    apply ih
    · exact hp
    · rfl
    · refine hcount.trans ?_
      rw [hlen, List.length_append, List.length_singleton]
      change min (min l₀.length (s.params.bufBytes + 1) + 1) (s.params.bufBytes + 1) =
        min (l₀.length + 1) (s.params.bufBytes + 1)
      omega

/-! ## `CLEAR` -/

/-- `CLEAR` outside `BUSY` leaves the reset state but for `CTRL` (R160). -/
theorem clearCore_wiped {s : State} (h : s.Inv) (hp : s.phase ≠ .busy) :
    clearCore s = s.wiped.respond .okWrite := by
  rcases clearCore_cases s with ⟨hbusy, _⟩ | ⟨_, he⟩
  · exact absurd hbusy hp
  · obtain ⟨hrk, hnr, hsreg, hhreg, hj0, hcb, hyreg, hekj0, htagc⟩ := h.scratch
    simp only [he, State.respond, State.wiped, h.runcmd_none hp, h.rbpReq_idle hp, hrk, hnr, hsreg, hhreg, hj0, hcb,
      hyreg, hekj0, htagc]

/-- The cleared state depends on what is around the command only. -/
theorem wiped_eq {s t : State} (h : t.frame = s.frame) :
    t.wiped.respond .okWrite = { s.wiped with bus := .okWrite, rbpRequests := t.rbpRequests } := by
  simp only [State.frame, Prod.mk.injEq] at h
  obtain ⟨hie, hparams, hresult, hevents⟩ := h
  simp only [State.respond, State.wiped, hie, hparams, hresult, hevents]

/-! ## The state in which a driver's command runs -/

/-- The pushes of a driver, after `CLEAR` (R184, R185). -/
def loadScript (key n data : List Byte) : List Instr :=
  clearScript ++ pushKeyScript key ++ pushNonceScript n ++ pushDataScript data

theorem loadScript_not_internal (key n data : List Byte) : ∀ i ∈ loadScript key n data, i.internal = false := by
  simp only [loadScript, clearScript, pushKeyScript, pushNonceScript, pushDataScript, List.mem_append, List.mem_map,
    List.mem_singleton]
  rintro i (((rfl | ⟨_, _, rfl⟩) | ⟨_, _, rfl⟩) | ⟨_, _, rfl⟩) <;> rfl

/-- `t` runs the command `c` on the strings that a driver has pushed, from the state `s`. -/
structure Loaded (c : RunCmd) (key n data : List Byte) (s t : State) : Prop where
  inv : t.Inv
  phase : t.phase = .busy
  runcmd : t.runcmd = c
  rbpReq : t.rbpReq = .idle
  key : Pushed (Vector.replicate 32 0) t.key t.keylen.toNat key
  nonce : Pushed (Vector.replicate 12 0) t.nonce t.noncelen.toNat n
  ibuf : t.ibuf = data.take s.params.bufBytes
  ilen : t.ilen.toNat = min data.length (s.params.bufBytes + 1)
  frame : t.frame = s.frame
  rbpRequests : t.rbpRequests = s.rbpRequests

/-- What the pushes of a driver and the write of its command leave. -/
theorem loaded_startCommand {s : State} (h : s.Inv) (hp : s.phase = .idle) {c : RunCmd} (hc : c ≠ .none)
    (key n data : List Byte) :
    Loaded c key n data s (startCommand c (runScript (loadScript key n data) s)) := by
  have hinv := runScript_inv (loadScript_not_internal key n data) h
  have hclear : runScript clearScript s = s.wiped.respond .okWrite := clearCore_wiped h (by simp [hp])
  obtain ⟨k, klen, b₁, hk, hkey⟩ :=
    runScript_pushKeyScript key (s := s.wiped.respond .okWrite) rfl (pushed_nil _)
  obtain ⟨m, mlen, b₂, hm, hnonce⟩ :=
    runScript_pushNonceScript n (s := (s.wiped.respond .okWrite).withKey k klen b₁) rfl (pushed_nil _)
  obtain ⟨dlen, b₃, hd, hdata⟩ :=
    runScript_pushDataScript data (s := ((s.wiped.respond .okWrite).withKey k klen b₁).withNonce m mlen b₂) rfl
      (l₀ := []) rfl (Nat.zero_min _).symm
  have hload : runScript (loadScript key n data) s =
      (((s.wiped.respond .okWrite).withKey k klen b₁).withNonce m mlen b₂).withInput
        (data.take s.params.bufBytes) dlen b₃ := by
    rw [loadScript, runScript_append, runScript_append, runScript_append, hclear, hk, hm, hd]
    rfl
  have hstart := hinv.startCommand hc
  rw [hload] at hstart ⊢
  exact ⟨hstart, rfl, rfl, rfl, hkey, hnonce, rfl, hdata, rfl, rfl⟩

end Sys2Proof.Machine
end

section
/-! SUPPORT. The drivers (R184, R185): what a loaded command's checks see, what the reads after it return, and that the
drivers return what `SealSpec` and `OpenSpec` say. -/

namespace Sys2Proof.Machine

/-! ## What the checks of a loaded command see -/

namespace Loaded

variable {c : RunCmd} {key n data : List Byte} {s t : State}

theorem params_eq (h : Loaded c key n data s t) : t.params = s.params := congrArg (·.2.1) h.frame

theorem ie_eq (h : Loaded c key n data s t) : t.ie = s.ie := congrArg (·.1) h.frame

theorem badKeyLength_iff (h : Loaded c key n data s t) :
    t.badKeyLength = true ↔ key.length ≠ 16 ∧ key.length ≠ 32 := by
  have hlen := h.key.1
  simp only [State.badKeyLength, Bool.and_eq_true, decide_eq_true_eq]
  bv_omega

theorem noncelen_ne_iff (h : Loaded c key n data s t) : t.noncelen ≠ 12 ↔ n.length ≠ 12 := by
  have hlen := h.nonce.1
  bv_omega

theorem keyBytes_eq (h : Loaded c key n data s t) (hlen : key.length ≤ 32) : t.keyBytes = key := h.key.take hlen

theorem nonce_eq (h : Loaded c key n data s t) : t.nonce = nonceOfBytes n := by
  apply Vector.ext
  intro i hi
  rw [h.nonce.2 i hi, Vector.getElem_replicate]
  interval_cases i <;> rfl

theorem message_eq (h : Loaded c key n data s t) (hlen : data.length ≤ s.params.bufBytes) : t.message = data := by
  rw [State.message, h.ibuf, h.ilen, h.params_eq, List.take_of_length_le hlen, List.take_of_length_le (by omega)]

/-- `SEAL`'s checks on the strings (R141, R191). -/
theorem sealCheck_eq (h : Loaded c key n data s t) :
    sealCheck t =
      if key.length ≠ 16 ∧ key.length ≠ 32 then some .invalidKeyLength
      else if s.params.bufBytes - 16 < data.length then some .lengthLimit
      else none := by
  have hlen := h.ilen
  have hlimit : s.params.bufBytes - 16 < t.ilen.toNat ↔ s.params.bufBytes - 16 < data.length := by omega
  simp only [sealCheck, h.params_eq, h.badKeyLength_iff, hlimit]

/-- `OPEN`'s checks on the strings (R151, R192). -/
theorem openCheck_eq (h : Loaded c key n data s t) :
    openCheck t =
      if key.length ≠ 16 ∧ key.length ≠ 32 then some .invalidKeyLength
      else if n.length ≠ 12 then some .invalidNonceLength
      else if s.params.bufBytes < data.length then some .lengthLimit
      else if data.length < 16 then some .authenticationFailure
      else none := by
  have hlen := h.ilen
  have hbuf := bufBytes_ge s.params
  have hlimit : s.params.bufBytes < t.ilen.toNat ↔ s.params.bufBytes < data.length := by omega
  have hshort : t.ilen.toNat < 16 ↔ data.length < 16 := by omega
  simp only [openCheck, h.params_eq, h.badKeyLength_iff, h.noncelen_ne_iff, hlimit, hshort]

end Loaded

/-! ## What the driver returns after the wait -/

/-- What a driver returns from a commit: the error, or else a value. -/
def State.outcome {α : Type} (s : State) (v : α) : Except ErrCode α := if s.err = .none then .ok v else .error s.err

theorem outcome_error {α : Type} {s : State} (h : s.err ≠ .none) (v : α) : s.outcome v = .error s.err := if_neg h

theorem outcome_ok {α : Type} {s : State} (h : s.err = .none) (v : α) : s.outcome v = .ok v := if_pos h

/-- A commit leaves the pointer at the first byte of the result (R204, R205). -/
theorem engineTurn_optr {s : State} (hbusy : s.phase = .busy) (hdone : (engineTurn s).phase = .done) :
    (engineTurn s).optr = 0 := by
  rcases engineTurn_cases s with ⟨_, _, he⟩ | ⟨_, _, he⟩ | ⟨_, he⟩
  · rw [he] at hdone ⊢
    rcases completeSeal_cases s with ⟨_, _, hc⟩ | ⟨_, _, hc⟩ | ⟨_, _, hc⟩ | ⟨_, _, _, hc⟩ <;> rw [hc] at hdone ⊢
    · rfl
    · exact absurd (hbusy.symm.trans hdone) (by simp)
    · rfl
    · rfl
  · rw [he]
    rcases completeOpen_cases s with ⟨_, _, hc⟩ | ⟨_, _, hc⟩ | ⟨_, _, _, hc⟩ <;> rw [hc] <;> rfl
  · rw [he] at hdone
    exact absurd (hbusy.symm.trans hdone) (by simp)

/-- Reads of nonce bytes return them in order and change the response only (R29, R56). -/
theorem readBytes_nonce (l : List (Fin 12)) (s : State) :
    ∃ b, readBytes (l.map fun i => readInstr (.nonce i)) s = (l.map (s.nonce[·]), s.respond b) := by
  induction l generalizing s with
  | nil => exact ⟨s.bus, rfl⟩
  | cons i l ih =>
    have hread : transact (readInstr (.nonce i)) s = s.respond (.ok8 s.nonce[i]) := by
      rw [transact, exec_readInstr]
      rfl
    obtain ⟨b, hb⟩ := ih (s.respond (.ok8 s.nonce[i]))
    refine ⟨b, ?_⟩
    rw [List.map_cons, readBytes, hread, hb]
    rfl

/-- `RDNONCE` returns the nonce (R80). -/
theorem readBytes_rdNonceScript (s : State) :
    ∃ b, readBytes rdNonceScript s = (s.nonce.toList, s.respond b) := by
  have hlist : s.nonce.toList = (List.finRange 12).map (s.nonce[·]) := by
    apply List.ext_getElem
    · simp
    · intro i h1 h2
      simp
  rw [hlist]
  exact readBytes_nonce (List.finRange 12) s

/-- The state after `CLEAR` does not depend on the pointer and the response before it. -/
theorem clearCore_popped {s : State} (hp : s.phase ≠ .busy) (k : Nat) (b : BusResponse) :
    clearCore { s with optr := k, bus := b } = clearCore s := by
  simp [clearCore, hp]

/-- The whole result is popped, then `CLEAR` (R184, R185). -/
theorem drain_and_clear {s : State} (h : s.Inv) (hdone : s.phase = .done) (hptr : s.optr = 0) :
    (readBytes (popDataScript s.olen.toNat) s).1 = s.obuf ∧
    runScript clearScript (readBytes (popDataScript s.olen.toNat) s).2 = s.wiped.respond .okWrite := by
  have hp : s.phase ≠ .busy := by simp [hdone]
  obtain ⟨hbytes, hstate, _⟩ := popsDrainResult s h hptr
  refine ⟨hbytes, ?_⟩
  rw [hstate]
  exact (clearCore_popped hp _ _).trans (clearCore_wiped h hp)

theorem takeSealed_eq {s : State} (h : s.Inv) (hdone : s.phase = .done) (hptr : s.optr = 0) :
    takeSealed s = ((s.nonce.toList, s.obuf), s.wiped.respond .okWrite) := by
  have hread : transact .rd32Olen s = s.respond (.ok32 s.olen) := rfl
  have hlen : (s.respond (.ok32 s.olen)).read32 = s.olen := rfl
  obtain ⟨b, hnonce⟩ := readBytes_rdNonceScript (s.respond (.ok32 s.olen))
  obtain ⟨hbytes, hclear⟩ := drain_and_clear (s := s.respond b) (h.withVisible ..) hdone hptr
  rw [takeSealed, hread, hnonce, hlen]
  exact Prod.ext (Prod.ext rfl hbytes) hclear

theorem takeOpened_eq {s : State} (h : s.Inv) (hdone : s.phase = .done) (hptr : s.optr = 0) :
    takeOpened s = (s.obuf, s.wiped.respond .okWrite) := by
  have hread : transact .rd32Olen s = s.respond (.ok32 s.olen) := rfl
  have hlen : (s.respond (.ok32 s.olen)).read32 = (s.respond (.ok32 s.olen)).olen := rfl
  obtain ⟨hbytes, hclear⟩ := drain_and_clear (s := s.respond (.ok32 s.olen)) (h.withVisible ..) hdone hptr
  rw [takeOpened, hread, hlen]
  exact Prod.ext hbytes hclear

theorem finishSeal_readStatus {s : State} (h : s.Inv) (hdone : s.phase = .done) (hptr : s.optr = 0) :
    finishSeal (readStatus s) = (s.outcome (s.nonce.toList, s.obuf), s.wiped.respond .okWrite) := by
  have hinv : (s.respond (.ok32 s.status)).Inv := h.withVisible ..
  have hclear : runScript clearScript (s.respond (.ok32 s.status)) = s.wiped.respond .okWrite :=
    clearCore_wiped hinv (by simp [hdone])
  simp only [finishSeal, readStatus, status_err, errOfCode_code]
  cases he : s.err with
  | none => rw [takeSealed_eq hinv hdone hptr, outcome_ok he]; rfl
  | _ => rw [outcome_error (by simp [he]), he]; exact congrArg _ hclear

theorem finishOpen_readStatus {s : State} (h : s.Inv) (hdone : s.phase = .done) (hptr : s.optr = 0) :
    finishOpen (readStatus s) = (s.outcome s.obuf, s.wiped.respond .okWrite) := by
  have hinv : (s.respond (.ok32 s.status)).Inv := h.withVisible ..
  have hclear : runScript clearScript (s.respond (.ok32 s.status)) = s.wiped.respond .okWrite :=
    clearCore_wiped hinv (by simp [hdone])
  simp only [finishOpen, readStatus, status_err, errOfCode_code]
  cases he : s.err with
  | none => rw [takeOpened_eq hinv hdone hptr, outcome_ok he]; rfl
  | _ => rw [outcome_error (by simp [he]), he]; exact congrArg _ hclear

/-- After the wait: the clean `IDLE` state, with the requests that the RBP has received (R184, R185). -/
theorem wiped_addRequests {s t : State} (hframe : t.frame = s.frame) (m : Nat) :
    ((engineTurn t).addRequests m).wiped.respond .okWrite =
      { s.wiped with bus := .okWrite, rbpRequests := t.rbpRequests + m } := by
  have hkept : ((engineTurn t).addRequests m).frame = s.frame := (engineTurn_frame t).trans hframe
  rw [wiped_eq hkept]
  simp only [State.addRequests, engineTurn_rbpRequests]

/-- What `DrvSeal` returns when the Engine's turn has ended its command and `m` more requests have come. -/
theorem finishSeal_engineTurn {s t : State} (hinv : t.Inv) (hbusy : t.phase = .busy) (hframe : t.frame = s.frame)
    (hdone : (engineTurn t).phase = .done) (m : Nat) :
    finishSeal (readStatus ((engineTurn t).addRequests m)) =
      ((engineTurn t).outcome ((engineTurn t).nonce.toList, (engineTurn t).obuf),
        { s.wiped with bus := .okWrite, rbpRequests := t.rbpRequests + m }) := by
  rw [finishSeal_readStatus (addRequests_inv hinv.engineTurn m) hdone (engineTurn_optr hbusy hdone),
    wiped_addRequests hframe]
  rfl

theorem finishOpen_engineTurn {s t : State} (hinv : t.Inv) (hbusy : t.phase = .busy) (hframe : t.frame = s.frame)
    (hdone : (engineTurn t).phase = .done) (m : Nat) :
    finishOpen (readStatus ((engineTurn t).addRequests m)) =
      ((engineTurn t).outcome (engineTurn t).obuf,
        { s.wiped with bus := .okWrite, rbpRequests := t.rbpRequests + m }) := by
  rw [finishOpen_readStatus (addRequests_inv hinv.engineTurn m) hdone (engineTurn_optr hbusy hdone),
    wiped_addRequests hframe]
  rfl

/-! ## `DrvOpen` -/

theorem loaded_openInputScript {s : State} (h : s.Inv) (hp : s.phase = .idle) (key ct n : List Byte) :
    Loaded .opening key n ct s (runScript (openInputScript key ct n) s) := by
  have hscript : openInputScript key ct n = loadScript key n ct ++ openScript := rfl
  rw [hscript, runScript_append]
  exact loaded_startCommand h hp (by simp) key n ct

/-- The Engine's turn on a loaded `OPEN` gives what `OpenSpec` says (R151, R192). -/
theorem Loaded.openSpec_turn {key n ct : List Byte} {s t : State} (h : Loaded .opening key n ct s t) :
    (engineTurn t).phase = .done ∧
    (engineTurn t).outcome (engineTurn t).obuf = openSpec s.params.bufBytes key ct n := by
  rw [engineTurn_opening h.phase h.runcmd]
  refine ⟨(completeOpen_phase_ie t).1, ?_⟩
  have hcheck := h.openCheck_eq
  unfold openSpec
  split_ifs at hcheck ⊢ with hkey hnonce hlimit hshort
  · rw [completeOpen_check hcheck]; rfl
  · rw [completeOpen_check hcheck]; rfl
  · rw [completeOpen_check hcheck]; rfl
  · rw [completeOpen_check hcheck]; rfl
  · have hargs : gcmAd (cipherUnder t.keyBytes) t.nonce t.message = gcmAd (cipherUnder key) (nonceOfBytes n) ct := by
      rw [h.keyBytes_eq (by omega), h.nonce_eq, h.message_eq (by omega)]
    cases hg : gcmAd (cipherUnder key) (nonceOfBytes n) ct with
    | none => rw [completeOpen_reject hcheck (hargs.trans hg)]; rfl
    | some p => rw [completeOpen_accept hcheck (hargs.trans hg)]; rfl

/-- What `DrvOpen` returns and leaves under some turns (R192). -/
def openReturn (key ct n : List Byte) (s : State) (l : List Turn) : Except ErrCode (List Byte) × State :=
  (openSpec s.params.bufBytes key ct n,
    { s.wiped with bus := .okWrite, rbpRequests := s.rbpRequests + l.count .otherRequest })

/-- A loaded `OPEN` ends at the first turn of the Engine, with what `OpenSpec` says. -/
theorem Loaded.open_turns {key n ct : List Byte} {s t : State} (h : Loaded .opening key n ct s t) :
    (∀ l, .engine ∈ l ↔ (takeTurns l t).phase = .done) ∧
    ∀ l, .engine ∈ l → finishOpen (readStatus (takeTurns l t)) = openReturn key ct n s l := by
  obtain ⟨hdone, hspec⟩ := h.openSpec_turn
  have hsettled : t.RbpSettled := .inl ⟨by simp [drawPending_iff, h.runcmd], h.rbpReq⟩
  refine ⟨engine_mem_iff_done h.inv hsettled h.phase hdone, fun l hl => ?_⟩
  rw [takeTurns_settled h.inv hsettled hdone, if_pos hl, finishOpen_engineTurn h.inv h.phase h.frame hdone, hspec,
    h.rbpRequests]
  rfl

theorem runScript_irqOnScript (s : State) (l : List Instr) :
    runScript (irqOnScript ++ l) s = runScript l (writeCtrl 1 s) := rfl

/-- Settles O60: the command that the script loads ends at the Engine's first turn, and so does either wait for it. -/
theorem drvOpenIsOpenSpec : Obligations.DrvOpenIsOpenSpec := by
  intro key ct n s hinv hidle value clean
  obtain ⟨hends, hresult⟩ := (loaded_openInputScript hinv hidle key ct n).open_turns
  have hirq := loaded_openInputScript (s := writeCtrl 1 s) (hinv.withVisible ..) hidle key ct n
  obtain ⟨hends', hresult'⟩ := hirq.open_turns
  refine ⟨fun sched => polling_driver hends hresult sched, fun turns => ?_⟩
  simp only [drvOpenIrq, runScript_irqOnScript]
  exact irq_driver (hirq.ie_eq.trans rfl) hends' hresult' turns

/-! ## `DrvSeal` -/

theorem loaded_sealInputScript {s : State} (h : s.Inv) (hp : s.phase = .idle) (key p : List Byte) :
    Loaded .sealing key [] p s (runScript (sealInputScript key p) s) := by
  have hscript : sealInputScript key p = loadScript key [] p ++ sealScript := by
    simp [sealInputScript, loadScript, pushNonceScript]
  rw [hscript, runScript_append]
  exact loaded_startCommand h hp (by simp) key [] p

/-- The checks before the draw pass (R191). -/
abbrev SealDraws (key p : List Byte) (s : State) : Prop :=
  (key.length = 16 ∨ key.length = 32) ∧ p.length ≤ s.params.bufBytes - 16

/-- What `DrvSeal` returns and leaves under some turns (R191). -/
def sealReturn (key p : List Byte) (s : State) (l : List Turn) : Except ErrCode (List Byte × List Byte) × State :=
  (sealSpec s.params.bufBytes key p
      (providerAnswer s.params.rbp (requestNumber s.rbpRequests l) (firstDraw l)),
    { s.wiped with
      bus := .okWrite
      rbpRequests := s.rbpRequests + l.count .otherRequest + (if SealDraws key p s then 1 else 0) })

/-- The turns that end a `SEAL`: an answer and then the Engine, or the Engine alone when a check fails (R135, R141). -/
def SealEnds (key p : List Byte) (s : State) (l : List Turn) : Prop :=
  if SealDraws key p s then AnswerThenEngine l else .engine ∈ l

namespace Loaded

variable {key p : List Byte} {s t : State}

/-- When a check fails the Engine's turn gives what `SealSpec` says, whatever the answer (R142, R143). -/
theorem sealSpec_failed (h : Loaded .sealing key [] p s t) (hnot : ¬ SealDraws key p s) (a : Answer) :
    (engineTurn t).phase = .done ∧
    (engineTurn t).outcome ((engineTurn t).nonce.toList, (engineTurn t).obuf) =
      sealSpec s.params.bufBytes key p a := by
  rw [engineTurn_sealing h.phase h.runcmd]
  have hcheck := h.sealCheck_eq
  unfold sealSpec
  split_ifs at hcheck ⊢ with hkey hlimit
  · rw [completeSeal_check hcheck]; exact ⟨rfl, rfl⟩
  · rw [completeSeal_check hcheck]; exact ⟨rfl, rfl⟩
  · exact absurd ⟨by omega, by omega⟩ hnot

/-- The draw is pending exactly when the checks on the strings pass (R36, R191). -/
theorem drawPending_iff_draws (h : Loaded .sealing key [] p s t) : t.drawPending = true ↔ SealDraws key p s := by
  have hcheck := h.sealCheck_eq
  rw [drawPending_iff, hcheck]
  simp only [h.phase, h.runcmd, true_and]
  split_ifs with hkey hlimit
  · exact iff_of_false (by simp) (by omega)
  · exact iff_of_false (by simp) (by omega)
  · exact iff_of_true rfl (by omega)

/-- With the answer to its draw the Engine's turn gives what `SealSpec` says for it (R141, R144). -/
theorem sealSpec_answered (h : Loaded .sealing key [] p s t) (hdraws : SealDraws key p s) (a : Answer) :
    (engineTurn (t.withAnswer a)).outcome
        ((engineTurn (t.withAnswer a)).nonce.toList, (engineTurn (t.withAnswer a)).obuf) =
      sealSpec s.params.bufBytes key p a := by
  obtain ⟨hbusy, hsealing, hcheck⟩ := (drawPending_iff t).mp (h.drawPending_iff_draws.mpr hdraws)
  unfold sealSpec
  rw [engineTurn_sealing (s := t.withAnswer a) hbusy hsealing, if_neg (by omega), if_neg (by omega)]
  cases a with
  | fail => rw [completeSeal_fail (s := t.withAnswer .fail) hcheck rfl]; rfl
  | ok n =>
    have hkey : (t.withAnswer (.ok n)).keyBytes = key := h.keyBytes_eq (by omega)
    have hmessage : (t.withAnswer (.ok n)).message = p := h.message_eq (by omega)
    rw [completeSeal_ok (s := t.withAnswer (.ok n)) hcheck rfl, hkey, hmessage]
    rfl

/-- A loaded `SEAL` whose checks pass ends at the Engine's turn after the answer to its request. -/
theorem seal_turns_draws (h : Loaded .sealing key [] p s t) (hdraws : SealDraws key p s) :
    (∀ l, AnswerThenEngine l ↔ (takeTurns l t).phase = .done) ∧
    ∀ l, AnswerThenEngine l → finishSeal (readStatus (takeTurns l t)) = sealReturn key p s l := by
  have hp := h.drawPending_iff_draws.mpr hdraws
  have hturns := takeTurns_drawing h.inv hp h.rbpReq
  refine ⟨fun l => ⟨fun hl => ?_, fun hdone => ?_⟩, fun l hl => ?_⟩
  · rw [(hturns l).1 hl]
    exact engineTurn_withAnswer_done hp _
  · by_contra hl
    exact absurd (((hturns l).2 hl).symm.trans hdone) (by simp)
  · have hinv (a : Answer) : (t.withAnswer a).Inv :=
      h.inv.withRequest ((drawPending_iff t).mp hp).2 (n := t.rbpRequests) (by simp)
    rw [(hturns l).1 hl, finishSeal_engineTurn (hinv _) h.phase h.frame (engineTurn_withAnswer_done hp _),
      h.sealSpec_answered hdraws, sealReturn, if_pos hdraws, h.params_eq, h.rbpRequests]
    have hrequests (a : Answer) : (t.withAnswer a).rbpRequests = s.rbpRequests := h.rbpRequests
    rw [hrequests]
    rfl

/-- A loaded `SEAL` that fails a check ends at the Engine's first turn, without a request. -/
theorem seal_turns_failed (h : Loaded .sealing key [] p s t) (hnot : ¬ SealDraws key p s) :
    (∀ l, .engine ∈ l ↔ (takeTurns l t).phase = .done) ∧
    ∀ l, .engine ∈ l → finishSeal (readStatus (takeTurns l t)) = sealReturn key p s l := by
  have hsettled : t.RbpSettled := .inl ⟨fun hp => hnot (h.drawPending_iff_draws.mp hp), h.rbpReq⟩
  have hdone := (h.sealSpec_failed hnot .fail).1
  refine ⟨engine_mem_iff_done h.inv hsettled h.phase hdone, fun l hl => ?_⟩
  rw [takeTurns_settled h.inv hsettled hdone, if_pos hl, finishSeal_engineTurn h.inv h.phase h.frame hdone,
    (h.sealSpec_failed hnot _).2, sealReturn, if_neg hnot, h.rbpRequests]
  rfl

/-- A loaded `SEAL` ends at the turns that `SealEnds` names, with what `SealSpec` says. -/
theorem seal_turns (h : Loaded .sealing key [] p s t) :
    (∀ l, SealEnds key p s l ↔ (takeTurns l t).phase = .done) ∧
    ∀ l, SealEnds key p s l → finishSeal (readStatus (takeTurns l t)) = sealReturn key p s l := by
  by_cases hdraws : SealDraws key p s
  · simp only [SealEnds, if_pos hdraws]
    exact h.seal_turns_draws hdraws
  · simp only [SealEnds, if_neg hdraws]
    exact h.seal_turns_failed hdraws

end Loaded

/-- Settles O59: the command that the script loads ends at the turns `SealEnds` names, and so does either wait for it. -/
theorem drvSealIsSealSpec : Obligations.DrvSealIsSealSpec := by
  intro key p s hinv hidle drawn ends value clean
  obtain ⟨hends, hresult⟩ := (loaded_sealInputScript hinv hidle key p).seal_turns
  have hirq := loaded_sealInputScript (s := writeCtrl 1 s) (hinv.withVisible ..) hidle key p
  obtain ⟨hends', hresult'⟩ := hirq.seal_turns
  refine ⟨fun sched => polling_driver hends hresult sched, fun turns => ?_⟩
  simp only [drvSealIrq, runScript_irqOnScript]
  exact irq_driver (hirq.ie_eq.trans rfl) hends' hresult' turns

end Sys2Proof.Machine
end

section
/-! SUPPORT. Bytes as polynomials over GF(2) modulo x^8 + x^4 + x^3 + x + 1 (R91), and the factors 2 and 3 of R96. -/

namespace Sys2Proof.Machine

open Polynomial in
/-- The modulus m(x) of R91. -/
noncomputable def aesModulus : (ZMod 2)[X] := X ^ 8 + X ^ 4 + X ^ 3 + X + 1

open Polynomial in
/-- The polynomial of the `n` low bits of a byte (R91). -/
noncomputable def bitsPoly (c : Byte) (n : Nat) : (ZMod 2)[X] := ∑ i ∈ Finset.range n, if c.getLsbD i then X ^ i else 0

/-- The residue of a byte's polynomial. -/
noncomputable def byteResidue (c : Byte) : AdjoinRoot aesModulus := AdjoinRoot.mk aesModulus (bitsPoly c 8)

open Polynomial in
theorem bitsPoly_succ (c : Byte) (n : Nat) :
    bitsPoly c (n + 1) = bitsPoly c n + if c.getLsbD n then X ^ n else 0 :=
  Finset.sum_range_succ ..

theorem bitsPoly_xor (a b : Byte) (n : Nat) : bitsPoly (a ^^^ b) n = bitsPoly a n + bitsPoly b n := by
  simp only [bitsPoly, BitVec.getLsbD_xor, ← Finset.sum_add_distrib]
  refine Finset.sum_congr rfl fun i _ => ?_
  cases a.getLsbD i <;> cases b.getLsbD i <;> simp [CharTwo.add_self_eq_zero]

open Polynomial in
/-- The left shift is multiplication by x but for the bit that falls out. -/
theorem bitsPoly_shiftLeft (a : Byte) :
    bitsPoly (a <<< 1) 8 = X * bitsPoly a 8 + if a.getLsbD 7 then X ^ 8 else 0 := by
  have hshift : bitsPoly (a <<< 1) 8 = X * bitsPoly a 7 := by
    rw [bitsPoly, Finset.sum_range_succ', bitsPoly, Finset.mul_sum]
    simp only [BitVec.getLsbD_shiftLeft]
    refine (add_eq_left.mpr (by simp)).trans (Finset.sum_congr rfl fun i hi => ?_)
    have hi8 : i + 1 < 8 := Nat.succ_lt_succ (Finset.mem_range.mp hi)
    simp [hi8, pow_succ', mul_ite]
  rw [hshift, bitsPoly_succ a 7, mul_add, add_assoc]
  cases a.getLsbD 7 <;> simp [← pow_succ', CharTwo.add_self_eq_zero]

open Polynomial in
theorem bitsPoly_reduction : bitsPoly 0x1b 8 = aesModulus + X ^ 8 := by
  have h2 : (X ^ 8 + X ^ 8 : (ZMod 2)[X]) = 0 := CharTwo.add_self_eq_zero _
  have hbits : bitsPoly 0x1b 8 = X ^ 4 + X ^ 3 + X + 1 := by
    simp [bitsPoly, Finset.sum_range_succ, BitVec.getLsbD_ofNat, Nat.testBit]
    ring
  rw [hbits, aesModulus]
  linear_combination -h2

theorem byteResidue_zero : byteResidue 0 = 0 := by simp [byteResidue, bitsPoly]

theorem byteResidue_xor (a b : Byte) : byteResidue (a ^^^ b) = byteResidue a + byteResidue b := by
  simp [byteResidue, bitsPoly_xor]

/-- `xtime` is multiplication by x modulo m(x). -/
theorem byteResidue_xtime (a : Byte) : byteResidue (xtime a) = AdjoinRoot.root aesModulus * byteResidue a := by
  unfold xtime
  rw [byteResidue, bitsPoly_xor, bitsPoly_shiftLeft, byteResidue, ← AdjoinRoot.mk_X, ← map_mul]
  cases a.getLsbD 7
  · simp [bitsPoly]
  · simp only [if_true, bitsPoly_reduction]
    rw [show ∀ p q : Polynomial (ZMod 2), p + q + (aesModulus + q) = p + aesModulus + (q + q) from fun p q => by ring,
      CharTwo.add_self_eq_zero, add_zero, map_add, AdjoinRoot.mk_self, add_zero]

/-- The loop of R91 after `n` rounds: the product with the `n` low bits of `b`, and `a` multiplied by x^n. -/
theorem gmulLoop_residue (a b : Byte) (n : Nat) :
    byteResidue ((List.range n).foldl (gmulStep b) (0, a)).1 =
        byteResidue a * AdjoinRoot.mk aesModulus (bitsPoly b n) ∧
      byteResidue ((List.range n).foldl (gmulStep b) (0, a)).2 = AdjoinRoot.root aesModulus ^ n * byteResidue a := by
  induction n with
  | zero => exact ⟨byteResidue_zero.trans (by simp [bitsPoly]), by simp⟩
  | succ n ih =>
    obtain ⟨hprod, hpow⟩ := ih
    rw [List.range_succ, List.foldl_append, List.foldl_cons, List.foldl_nil, bitsPoly_succ]
    refine ⟨?_, by rw [gmulStep, byteResidue_xtime, hpow, pow_succ', mul_assoc]⟩
    cases hb : b.getLsbD n
    · simpa [gmulStep, hb] using hprod
    · rw [gmulStep, hb, if_pos rfl, if_pos rfl, byteResidue_xor, hprod, hpow, map_add, map_pow, AdjoinRoot.mk_X, mul_add,
        mul_comm (_ ^ n)]

/-- `gmul` is the product of residues (R91). -/
theorem byteResidue_gmul (a b : Byte) : byteResidue (gmul a b) = byteResidue a * byteResidue b :=
  (gmulLoop_residue a b 8).1

/-- Settles O41: `gmul` is the product in the quotient by m(x), which is divisibility by m(x). -/
theorem gmulIsPolynomialProduct : Obligations.GmulIsPolynomialProduct := by
  intro a b
  exact AdjoinRoot.mk_eq_mk.mp ((byteResidue_gmul a b).trans (map_mul _ _ _).symm)

/-! ## The factors 2 and 3 -/

theorem gmul_two (a : Byte) : gmul a 2 = xtime a := by
  simp [gmul, gmulStep, List.range_succ]

theorem gmul_three (a : Byte) : gmul a 3 = a ^^^ xtime a := by
  simp [gmul, gmulStep, List.range_succ]

theorem xtime_xor (a b : Byte) : xtime (a ^^^ b) = xtime a ^^^ xtime b := by
  have hbit : (if (a ^^^ b).getLsbD 7 then 0x1b else 0x00 : Byte) =
      (if a.getLsbD 7 then 0x1b else 0x00) ^^^ (if b.getLsbD 7 then 0x1b else 0x00) := by
    rw [BitVec.getLsbD_xor]
    cases a.getLsbD 7 <;> cases b.getLsbD 7 <;> rfl
  rw [xtime, hbit, BitVec.shiftLeft_xor_distrib, xtime, xtime]
  ac_rfl

end Sys2Proof.Machine
end

section
/-! SUPPORT. The S-box as the affine map of the inverse (R93). -/

namespace Sys2Proof.Machine

/-- The inverse of the affine map of R93. -/
def sboxAffineInv (s : Byte) : Byte := s.rotateLeft 1 ^^^ s.rotateLeft 3 ^^^ s.rotateLeft 6 ^^^ 0x05

/-- The byte whose affine image the table of R93 holds for `a`; it is `inv(a)` of R91. -/
def byteInverse (a : Byte) : Byte := sboxAffineInv (sbox a)

theorem sboxAffine_getLsbD (b : Byte) {i : Nat} (hi : i < 8) : (sboxAffine b).getLsbD i =
    (b.getLsbD i ^^ b.getLsbD ((i + 4) % 8) ^^ b.getLsbD ((i + 5) % 8) ^^ b.getLsbD ((i + 6) % 8) ^^
      b.getLsbD ((i + 7) % 8) ^^ (0x63 : Byte).getLsbD i) := by
  simp only [sboxAffine, BitVec.getLsbD_xor, BitVec.getLsbD_rotateLeft]
  interval_cases i <;> grind

theorem sboxAffine_sboxAffineInv : ∀ s : Byte, sboxAffine (sboxAffineInv s) = s := by decide +kernel

theorem sbox_eq_sboxAffine (a : Byte) : sbox a = sboxAffine (byteInverse a) := (sboxAffine_sboxAffineInv (sbox a)).symm

/-! ## The whole table, entry by entry -/

theorem byteInverse_zero : byteInverse 0 = 0 := by decide +kernel

theorem gmul_byteInverse : ∀ a : Byte, a ≠ 0 → gmul a (byteInverse a) = 1 := by decide +kernel

theorem byteInverse_involutive : Function.Involutive byteInverse := by
  unfold Function.Involutive
  decide +kernel

theorem sbox_ne_self : ∀ a : Byte, sbox a ≠ a := by decide +kernel

/-- The inverse of the S-box undoes the affine map, then the inversion. -/
theorem sbox_bijective : Function.Bijective sbox := by
  refine Function.bijective_iff_has_inverse.mpr ⟨fun s => byteInverse (sboxAffineInv s), byteInverse_involutive, fun s => ?_⟩
  rw [sbox_eq_sboxAffine, byteInverse_involutive, sboxAffine_sboxAffineInv]

/-- Settles O40: the byte is `byteInverse a`, and `sboxAffine` is the map of R93 bit by bit. -/
theorem sboxDefinition : Obligations.SboxDefinition := by
  refine ⟨fun a => ⟨byteInverse a, ?_, fun i hi => ?_⟩, sbox_bijective, sbox_ne_self⟩
  · split
    · next h => exact h ▸ byteInverse_zero
    · next h => exact gmul_byteInverse a h
  · rw [sbox_eq_sboxAffine, sboxAffine_getLsbD _ hi]

end Sys2Proof.Machine
end

section
/-! SUPPORT. The four round transformations byte by byte (R94 to R97), and that each of them, and so the cipher, is a
bijection of the blocks. -/

namespace Sys2Proof.Machine

/-! ## The four transformations, byte by byte -/

theorem byteOf_subBytes (x : Block) {i : Nat} (hi : i < 16) : byteOf (subBytes x) i = sbox (byteOf x i) := by
  rw [subBytes, byteOf_ofBytes _ (by simp) i (by simpa using hi)]
  simp

theorem byteOf_shiftRows (x : Block) {r c : Nat} (hr : r < 4) (hc : c < 4) :
    byteOf (shiftRows x) (r + 4 * c) = byteOf x (r + 4 * ((c + r) % 4)) := by
  have hrow : (r + 4 * c) % 4 = r := by omega
  have hcol : (r + 4 * c) / 4 = c := by omega
  rw [shiftRows, byteOf_ofBytes _ (by simp) (r + 4 * c) (by simp; omega), List.getElem_map, List.getElem_range, hrow, hcol]

/-- Row `r` of the column that `MixColumns` makes of the column `a` (R96), with the factors as `xtime`. -/
def mixedRow (a : Nat → Byte) (r : Nat) : Byte :=
  a r ^^^ (a 0 ^^^ a 1 ^^^ a 2 ^^^ a 3) ^^^ xtime (a r ^^^ a ((r + 1) % 4))

theorem mixedRow_eq_gmul (a : Nat → Byte) :
    mixedRow a 0 = gmul (a 0) 2 ^^^ gmul (a 1) 3 ^^^ a 2 ^^^ a 3 ∧
    mixedRow a 1 = a 0 ^^^ gmul (a 1) 2 ^^^ gmul (a 2) 3 ^^^ a 3 ∧
    mixedRow a 2 = a 0 ^^^ a 1 ^^^ gmul (a 2) 2 ^^^ gmul (a 3) 3 ∧
    mixedRow a 3 = gmul (a 0) 3 ^^^ a 1 ^^^ a 2 ^^^ gmul (a 3) 2 := by
  simp only [mixedRow, gmul_two, gmul_three, xtime_xor]
  refine ⟨?_, ?_, ?_, ?_⟩ <;> grind

theorem mixColumnBytes_length {l : List Byte} (h : 4 ∣ l.length) : (mixColumnBytes l).length = l.length := by
  induction l using mixColumnBytes.induct with
  | case1 a0 a1 a2 a3 rest ih =>
    have hrest : 4 ∣ rest.length := by simp only [List.length_cons] at h; omega
    simp [mixColumnBytes, ih hrest]
  | case2 l hshort =>
    match l with
    | [] => rfl
    | [_] | [_, _] | [_, _, _] => simp at h
    | a0 :: a1 :: a2 :: a3 :: rest => exact absurd rfl (hshort a0 a1 a2 a3 rest)

theorem mixColumnBytes_getD {l : List Byte} {c r : Nat} (hr : r < 4) (hc : 4 * c + 4 ≤ l.length) :
    (mixColumnBytes l).getD (4 * c + r) 0 = mixedRow (fun j => l.getD (4 * c + j) 0) r := by
  induction l using mixColumnBytes.induct generalizing c with
  | case1 a0 a1 a2 a3 rest ih =>
    cases c with
    | zero =>
      obtain ⟨h0, h1, h2, h3⟩ := mixedRow_eq_gmul fun j => (a0 :: a1 :: a2 :: a3 :: rest).getD (4 * 0 + j) 0
      interval_cases r
      · exact h0.symm
      · exact h1.symm
      · exact h2.symm
      · exact h3.symm
    | succ c =>
      have hsucc (j : Nat) : 4 * (c + 1) + j = 4 * c + j + 1 + 1 + 1 + 1 := by omega
      simp only [hsucc, mixColumnBytes, List.getD_cons_succ]
      exact ih (by simp only [List.length_cons] at hc; omega)
  | case2 l hshort =>
    match l with
    | [] | [_] | [_, _] | [_, _, _] => simp at hc
    | a0 :: a1 :: a2 :: a3 :: rest => exact absurd rfl (hshort a0 a1 a2 a3 rest)

theorem toBytes_getD (x : Block) {i : Nat} (hi : i < 16) : (toBytes x).getD i 0 = byteOf x i := by
  rw [List.getD_eq_getElem _ _ (by simpa using hi), toBytes_getElem]

theorem byteOf_mixColumns (x : Block) {c r : Nat} (hc : c < 4) (hr : r < 4) :
    byteOf (mixColumns x) (4 * c + r) = mixedRow (fun j => byteOf x (4 * c + j)) r := by
  have hlen : (mixColumnBytes (toBytes x)).length = 16 := by rw [mixColumnBytes_length] <;> simp
  have hidx : 4 * c + r < (mixColumnBytes (toBytes x)).length := by omega
  rw [mixColumns, byteOf_ofBytes _ hlen _ hidx, ← List.getD_eq_getElem _ 0 hidx,
    mixColumnBytes_getD hr (by rw [toBytes_length]; omega)]
  simp (disch := omega) only [mixedRow, toBytes_getD]

/-! ## Each transformation is a bijection -/

/-- What a number of its own repetitions undoes is a bijection. -/
theorem bijective_of_iterate_eq {α : Type} {f : α → α} {n : Nat} (h : ∀ x, f^[n + 1] x = x) : Function.Bijective f :=
  Function.bijective_iff_has_inverse.mpr
    ⟨f^[n], fun x => by rw [← Function.iterate_succ_apply, h],
      fun x => by rw [← Function.iterate_succ_apply' f, h]⟩

theorem byteOf_shiftRows_iterate (n : Nat) (x : Block) {r c : Nat} (hr : r < 4) (hc : c < 4) :
    byteOf (shiftRows^[n] x) (r + 4 * c) = byteOf x (r + 4 * ((c + n * r) % 4)) := by
  induction n generalizing c with
  | zero => rw [Function.iterate_zero_apply, Nat.zero_mul, Nat.add_zero, Nat.mod_eq_of_lt hc]
  | succ n ih =>
    have hcol : ((c + r) % 4 + n * r) % 4 = (c + (n + 1) * r) % 4 := by rw [Nat.mod_add_mod]; ring_nf
    rw [Function.iterate_succ_apply', byteOf_shiftRows _ hr hc, ih (Nat.mod_lt _ (by omega)), hcol]

/-- Four times a rotation of rows of four bytes is the identity. -/
theorem shiftRows_bijective : Function.Bijective shiftRows := by
  refine bijective_of_iterate_eq (n := 3) fun x => block_ext_byteOf fun i hi => ?_
  have hi4 : i % 4 + 4 * (i / 4) = i := Nat.mod_add_div i 4
  have h := byteOf_shiftRows_iterate 4 x (r := i % 4) (c := i / 4) (by omega) (by omega)
  rwa [Nat.add_mul_mod_self_left, Nat.mod_eq_of_lt (a := i / 4) (by omega), hi4] at h

theorem mixedRow_congr {a b : Nat → Byte} (h : ∀ j, j < 4 → a j = b j) {r : Nat} (hr : r < 4) :
    mixedRow a r = mixedRow b r := by
  simp only [mixedRow, h 0, h 1, h 2, h 3, h r hr, h _ (Nat.mod_lt (r + 1) (by omega)), Nat.reduceLT]

theorem byteOf_mixColumns_iterate (n : Nat) (x : Block) {c r : Nat} (hc : c < 4) (hr : r < 4) :
    byteOf (mixColumns^[n] x) (4 * c + r) = mixedRow^[n] (fun j => byteOf x (4 * c + j)) r := by
  induction n generalizing r with
  | zero => rfl
  | succ n ih =>
    rw [Function.iterate_succ_apply', byteOf_mixColumns _ hc hr, Function.iterate_succ_apply']
    exact mixedRow_congr (fun j hj => ih hj) hr

theorem xor_left_comm {w : Nat} (a b c : BitVec w) : a ^^^ (b ^^^ c) = b ^^^ (a ^^^ c) := by ac_rfl

theorem mixedRow_sum (a : Nat → Byte) :
    mixedRow a 0 ^^^ mixedRow a 1 ^^^ mixedRow a 2 ^^^ mixedRow a 3 = a 0 ^^^ a 1 ^^^ a 2 ^^^ a 3 := by
  simp [mixedRow, xtime_xor, BitVec.xor_comm, xor_left_comm, BitVec.xor_assoc]

theorem mixedRow_xor_next (a : Nat → Byte) (r : Nat) :
    mixedRow a r ^^^ mixedRow a ((r + 1) % 4) = a r ^^^ a ((r + 1) % 4) ^^^ xtime (a r ^^^ a ((r + 2) % 4)) := by
  unfold mixedRow
  rw [Nat.mod_add_mod]
  generalize a 0 ^^^ a 1 ^^^ a 2 ^^^ a 3 = t
  simp [xtime_xor, BitVec.xor_comm, xor_left_comm, BitVec.xor_assoc]

/-- The square of the matrix of R96 has the factor 5 on the diagonal and 4 two rows on. -/
theorem mixedRow_mixedRow (a : Nat → Byte) (r : Nat) :
    mixedRow (mixedRow a) r = a r ^^^ xtime (xtime (a r ^^^ a ((r + 2) % 4))) := by
  rw [mixedRow, mixedRow_sum, mixedRow_xor_next, mixedRow]
  generalize a 0 ^^^ a 1 ^^^ a 2 ^^^ a 3 = t
  simp [xtime_xor, BitVec.xor_comm, xor_left_comm, BitVec.xor_assoc]

/-- The fourth power of the matrix of R96 is the identity. -/
theorem mixedRow_iterate_four (a : Nat → Byte) {r : Nat} (hr : r < 4) : mixedRow^[4] a r = a r := by
  change mixedRow (mixedRow (mixedRow (mixedRow a))) r = a r
  have hopp : ((r + 2) % 4 + 2) % 4 = r := by omega
  rw [mixedRow_mixedRow, mixedRow_mixedRow, mixedRow_mixedRow, hopp]
  simp [xtime_xor, BitVec.xor_comm, BitVec.xor_assoc]

theorem mixColumns_bijective : Function.Bijective mixColumns := by
  refine bijective_of_iterate_eq (n := 3) fun x => block_ext_byteOf fun i hi => ?_
  have hi4 : 4 * (i / 4) + i % 4 = i := Nat.div_add_mod i 4
  have h := byteOf_mixColumns_iterate 4 x (c := i / 4) (r := i % 4) (by omega) (by omega)
  rwa [mixedRow_iterate_four _ (Nat.mod_lt _ (by omega)), hi4] at h

theorem addRoundKey_bijective (k : Block) : Function.Bijective (addRoundKey · k) :=
  Function.Involutive.bijective fun x => by simp [addRoundKey]

theorem mapBytes_leftInverse {f g : Byte → Byte} (h : Function.LeftInverse g f) :
    Function.LeftInverse (fun x => ofBytes ((toBytes x).map g)) (fun x => ofBytes ((toBytes x).map f)) := by
  intro x
  dsimp only
  rw [toBytes_ofBytes _ (by simp), List.map_map, h.comp_eq_id, List.map_id, ofBytes_toBytes]

theorem subBytes_bijective : Function.Bijective subBytes := by
  obtain ⟨inv, hleft, hright⟩ := Function.bijective_iff_has_inverse.mp sbox_bijective
  exact Function.bijective_iff_has_inverse.mpr ⟨_, mapBytes_leftInverse hleft, mapBytes_leftInverse hright⟩

/-! ## The cipher is a bijection -/

theorem aesRound_eq_comp (k : Block) : (aesRound · k) = (addRoundKey · k) ∘ mixColumns ∘ shiftRows ∘ subBytes := by
  funext x
  simp only [aesRound, Function.comp_apply]

theorem aesRound_bijective (k : Block) : Function.Bijective (aesRound · k) := by
  rw [aesRound_eq_comp]
  exact (addRoundKey_bijective k).comp (mixColumns_bijective.comp (shiftRows_bijective.comp subBytes_bijective))

theorem cipherRounds_bijective (rk : Nat → Block) (n r : Nat) : Function.Bijective (cipherRounds rk n r) := by
  induction n generalizing r with
  | zero => exact Function.bijective_id
  | succ n ih => exact (ih (r + 1)).comp (aesRound_bijective (rk r))

theorem cipher_eq_comp (nr : Nat) (rk : Nat → Block) : cipher nr rk =
    (addRoundKey · (rk nr)) ∘ shiftRows ∘ subBytes ∘ cipherRounds rk (nr - 1) 1 ∘ (addRoundKey · (rk 0)) := by
  funext x
  simp only [cipher, Function.comp_apply]

theorem cipher_bijective (nr : Nat) (rk : Nat → Block) : Function.Bijective (cipher nr rk) := by
  rw [cipher_eq_comp]
  exact (addRoundKey_bijective (rk nr)).comp (shiftRows_bijective.comp (subBytes_bijective.comp
    ((cipherRounds_bijective rk (nr - 1) 1).comp (addRoundKey_bijective (rk 0)))))

/-- Settles O43: the cipher is a chain of bijections, whatever the round keys. -/
theorem cipherIsPermutation : Obligations.CipherIsPermutation :=
  fun key => cipher_bijective (keyRounds key) (roundKeyOf key)

end Sys2Proof.Machine
end

section
/-! SUPPORT. The key schedule (R98, R100): its words, the recurrence that the loop builds, and the round keys that hold the
key itself. -/

namespace Sys2Proof.Machine

/-! ## Words and their bytes -/

theorem rotWord_bytes (a0 a1 a2 a3 : Byte) : rotWord (a0 ++ a1 ++ a2 ++ a3) = a1 ++ a2 ++ a3 ++ a0 := by
  apply BitVec.eq_of_getLsbD_eq
  intro i hi
  simp only [rotWord, BitVec.getLsbD_rotateLeft, BitVec.getLsbD_append]
  grind

theorem extractLsb'_word (a0 a1 a2 a3 : Byte) :
    (a0 ++ a1 ++ a2 ++ a3).extractLsb' 24 8 = a0 ∧ (a0 ++ a1 ++ a2 ++ a3).extractLsb' 16 8 = a1 ∧
      (a0 ++ a1 ++ a2 ++ a3).extractLsb' 8 8 = a2 ∧ (a0 ++ a1 ++ a2 ++ a3).extractLsb' 0 8 = a3 := by
  refine ⟨?_, ?_, ?_, BitVec.extractLsb'_append_eq_right⟩
  · rw [BitVec.extractLsb'_append_eq_of_le (by decide), BitVec.extractLsb'_append_eq_of_le (by decide)]
    exact BitVec.extractLsb'_append_eq_left
  · rw [BitVec.extractLsb'_append_eq_of_le (by decide), BitVec.extractLsb'_append_eq_of_le (by decide)]
    exact BitVec.extractLsb'_append_eq_right
  · rw [BitVec.extractLsb'_append_eq_of_le (by decide)]
    exact BitVec.extractLsb'_append_eq_right

theorem subWord_bytes (a0 a1 a2 a3 : Byte) :
    subWord (a0 ++ a1 ++ a2 ++ a3) = sbox a0 ++ sbox a1 ++ sbox a2 ++ sbox a3 := by
  obtain ⟨h0, h1, h2, h3⟩ := extractLsb'_word a0 a1 a2 a3
  rw [subWord, h0, h1, h2, h3]

theorem rconByte_eq_gmul {j : Nat} (hj : 2 ≤ j) : rconByte j = gmul (rconByte (j - 1)) 2 := by
  match j, hj with
  | j + 2, _ => exact (gmul_two _).symm

theorem rcon_bytes (j : Nat) : rcon j = rconByte j ++ (0 : Byte) ++ (0 : Byte) ++ (0 : Byte) := by
  apply BitVec.eq_of_getLsbD_eq
  intro i hi
  simp only [rcon, BitVec.getLsbD_append]
  grind

/-- Word `i` of the bytes `b`, first byte leftmost (R98). -/
def wordAt (b : Nat → Byte) (i : Nat) : Word := b (4 * i) ++ b (4 * i + 1) ++ b (4 * i + 2) ++ b (4 * i + 3)

theorem byteOf_words (b : Nat → Byte) {i : Nat} (hi : i < 16) :
    byteOf (wordAt b 0 ++ wordAt b 1 ++ wordAt b 2 ++ wordAt b 3) i = b i := by
  apply BitVec.eq_of_getLsbD_eq
  intro j hj
  simp only [getLsbD_byteOf, wordAt, BitVec.getLsbD_append]
  interval_cases i <;> grind

/-! ## The words of the key -/

theorem keyWords_length (key : List Byte) : (keyWords key).length = key.length / 4 := by
  induction key using keyWords.induct with
  | case1 a b c d rest ih =>
    simp only [keyWords, List.length_cons, ih]
    omega
  | case2 l hshort =>
    match l with
    | [] | [_] | [_, _] | [_, _, _] => simp [keyWords]
    | a :: b :: c :: d :: rest => exact absurd rfl (hshort a b c d rest)

theorem keyWords_getD {key : List Byte} {i : Nat} (hi : i < key.length / 4) :
    (keyWords key).getD i 0 = wordAt (key.getD · 0) i := by
  induction key using keyWords.induct generalizing i with
  | case1 a b c d rest ih =>
    cases i with
    | zero => rfl
    | succ i =>
      simp only [List.length_cons] at hi
      exact ih (by omega)
  | case2 l hshort =>
    match l with
    | [] | [_] | [_, _] | [_, _, _] => simp at hi
    | a :: b :: c :: d :: rest => exact absurd rfl (hshort a b c d rest)

/-! ## The recurrence -/

/-- From word `nk` on, every word of `w` is the one R100 makes of the words before it. -/
def ObeysRecurrence (nk : Nat) (w : List Word) : Prop :=
  ∀ i, nk ≤ i → i < w.length → w.getD i 0 = w.getD (i - nk) 0 ^^^ scheduleWord nk i (w.getD (i - 1) 0)

theorem ObeysRecurrence.append_next {nk : Nat} {w : List Word} (hpos : 0 < nk) (h : ObeysRecurrence nk w) :
    ObeysRecurrence nk (w ++ [w.getD (w.length - nk) 0 ^^^ scheduleWord nk w.length (w.getD (w.length - 1) 0)]) := by
  intro i hnk hi
  simp only [List.length_append, List.length_cons, List.length_nil] at hi
  rw [List.getD_append w _ 0 (i - nk) (by omega), List.getD_append w _ 0 (i - 1) (by omega)]
  by_cases hlast : i = w.length
  · subst hlast
    rw [List.getD_append_right _ _ _ _ le_rfl, Nat.sub_self]
    rfl
  · rw [List.getD_append w _ 0 i (by omega)]
    exact h i hnk (by omega)

/-- The loop of R100 makes `fuel` more words after those it has and keeps the recurrence. -/
theorem scheduleLoop_spec {nk : Nat} (hpos : 0 < nk) (fuel : Nat) (ws : List Word) (hlen : nk ≤ ws.length)
    (h : ObeysRecurrence nk ws.reverse) :
    ObeysRecurrence nk (scheduleLoop nk fuel ws.length ws).reverse ∧
      ws.reverse <+: (scheduleLoop nk fuel ws.length ws).reverse ∧
      (scheduleLoop nk fuel ws.length ws).length = ws.length + fuel := by
  induction fuel generalizing ws with
  | zero => exact ⟨h, List.prefix_rfl, rfl⟩
  | succ fuel ih =>
    have hback : ws.reverse.getD (ws.length - nk) 0 = ws.getD (nk - 1) 0 := by
      rw [List.getD_reverse _ (by omega), show ws.length - 1 - (ws.length - nk) = nk - 1 by omega]
    have hlatest : ws.reverse.getD (ws.length - 1) 0 = ws.headD 0 := by
      rw [List.getD_reverse _ (by omega), Nat.sub_self]
      cases ws <;> rfl
    have hnext := h.append_next hpos
    rw [List.length_reverse, hback, hlatest, ← List.reverse_cons] at hnext
    obtain ⟨hrec, hstarts, hlength⟩ := ih (_ :: ws) (Nat.le_succ_of_le hlen) hnext
    rw [List.reverse_cons] at hstarts
    exact ⟨hrec, (List.prefix_append ..).trans hstarts, hlength.trans (Nat.succ_add_eq_add_succ ..)⟩

/-- The schedule starts with the key's words, has 4(NR + 1) words and obeys the recurrence (R100). -/
theorem keyExpansion_spec {key : List Byte} (hpos : 0 < key.length / 4) :
    ObeysRecurrence (key.length / 4) (keyExpansion key) ∧ keyWords key <+: keyExpansion key ∧
      (keyExpansion key).length = 4 * (key.length / 4 + 7) := by
  have hlen : (keyWords key).reverse.length = key.length / 4 := by rw [List.length_reverse, keyWords_length]
  have hstart : ObeysRecurrence (key.length / 4) (keyWords key).reverse.reverse := by
    intro i hnk hi
    rw [List.length_reverse] at hi
    omega
  obtain ⟨hrec, hstarts, hlength⟩ := scheduleLoop_spec hpos (4 * (keyRounds key + 1) - key.length / 4)
    (keyWords key).reverse hlen.ge hstart
  rw [hlen] at hrec hstarts hlength
  rw [List.reverse_reverse] at hstarts
  refine ⟨hrec, hstarts, (List.length_reverse ..).trans (hlength.trans ?_)⟩
  rw [keyRounds]
  omega

theorem keyExpansion_getD_key {key : List Byte} {i : Nat} (hi : i < key.length / 4) :
    (keyExpansion key).getD i 0 = wordAt (key.getD · 0) i := by
  obtain ⟨_, ⟨tail, happ⟩, _⟩ := keyExpansion_spec (key := key) (by omega)
  rw [← happ, List.getD_append _ _ _ _ (by rwa [keyWords_length]), keyWords_getD hi]

/-- A round key whose 16 bytes lie in the key is those bytes (R100). -/
theorem roundKeyOf_key {key : List Byte} {r : Nat} (h : 16 * r + 16 ≤ key.length) :
    roundKeyOf key r = ofBytes ((key.drop (16 * r)).take 16) := by
  have hword (j : Nat) (hj : j < 4) :
      (keyExpansion key).getD (4 * r + j) 0 = wordAt (fun i => key.getD (16 * r + i) 0) j := by
    rw [keyExpansion_getD_key (by omega), wordAt, wordAt, show 4 * (4 * r + j) = 16 * r + 4 * j by omega]
    simp only [Nat.add_assoc]
  have hkey : roundKeyOf key r = wordAt (fun i => key.getD (16 * r + i) 0) 0 ++
      wordAt (fun i => key.getD (16 * r + i) 0) 1 ++ wordAt (fun i => key.getD (16 * r + i) 0) 2 ++
      wordAt (fun i => key.getD (16 * r + i) 0) 3 := by
    rw [← hword 0 (by omega), ← hword 1 (by omega), ← hword 2 (by omega), ← hword 3 (by omega)]
    rfl
  have hlen : ((key.drop (16 * r)).take 16).length = 16 := by simp; omega
  refine block_ext_byteOf fun i hi => ?_
  rw [hkey, byteOf_words _ hi, byteOf_ofBytes _ hlen i (by omega), List.getD_eq_getElem _ _ (by omega)]
  simp

/-- Settles O42: the schedule is one list that starts with the key's words and obeys the recurrence. -/
theorem keyScheduleRecurrence : Obligations.KeyScheduleRecurrence := by
  refine ⟨fun a0 a1 a2 a3 => ⟨rotWord_bytes a0 a1 a2 a3, subWord_bytes a0 a1 a2 a3⟩,
    ⟨rconByte, rfl, fun j hj _ => rconByte_eq_gmul hj, fun j _ _ => rcon_bytes j⟩, ?_⟩
  intro key hkey nk w
  have hpos : 0 < key.length / 4 := by omega
  obtain ⟨hrec, _, hlen⟩ := keyExpansion_spec hpos
  refine ⟨hlen, fun i hi => keyExpansion_getD_key hi, fun i hnk hi => hrec i hnk (hlen ▸ hi), fun _ => rfl,
    roundKeyOf_key (by omega), fun h32 => ?_⟩
  rw [roundKeyOf_key (by omega), List.take_of_length_le (by simp [h32])]

end Sys2Proof.Machine
end

section
/-! SUPPORT. The operations of `AESC` run by themselves (R101, R102). -/

namespace Sys2Proof.Machine

/-! ## `AES.KEYEXP` -/

theorem roundKey_eq_rk (s : State) {r : Nat} (h : r < 15) : s.roundKey r = s.rk[r] := dif_pos h

theorem opKeyexp_nr_toNat (s : State) : (opKeyexp s).nr.toNat = if s.keylen = 16 then 10 else 14 := by
  unfold opKeyexp
  dsimp only
  split <;> rfl

/-- The round keys that `AES.KEYEXP` leaves, in terms of the `NR` that it leaves (R101). -/
theorem opKeyexp_rk (s : State) {r : Nat} (h : r < 15) :
    (opKeyexp s).rk[r] = if r ≤ (opKeyexp s).nr.toNat then s.expandedKey r else s.rk[r] := by
  rw [← roundKey_eq_rk _ h, opKeyexp_roundKey s h, opKeyexp_nr_toNat, roundKey_eq_rk s h]

/-- Settles O44: `opKeyexp` writes `NR` and the round keys up to `NR`, which are the key's for a `KEYLEN` of 16 or 32. -/
theorem keyexpWritesRoundKeys : Obligations.KeyexpWritesRoundKeys := by
  refine fun s => ⟨{ opKeyexp s with result := .none }, rfl, rfl, opKeyexp_nr_toNat s, fun r h hr => ?later,
    fun hlen r h hr => ?upToNr⟩
  case later => exact (opKeyexp_rk s h).trans (if_neg hr.not_ge)
  case upToNr => exact (opKeyexp_rk s h).trans ((if_pos hr).trans (if_pos hlen))

/-! ## `AES.CIPHER` -/

/-- The last of the full rounds, taken off at the end (R102). -/
theorem cipherRounds_succ_last (rk : Nat → Block) (n r : Nat) (x : Block) :
    cipherRounds rk (n + 1) r x = aesRound (cipherRounds rk n r x) (rk (r + n)) := by
  induction n generalizing r x with
  | zero => rfl
  | succ n ih => rw [cipherRounds, ih, cipherRounds, Nat.add_right_comm r 1 n, Nat.add_assoc r n 1]

theorem byteOf_mixColumns_gmul (x : Block) {c : Nat} (hc : c < 4) :
    let a (r : Nat) : Byte := byteOf x (4 * c + r)
    byteOf (mixColumns x) (4 * c) = gmul (a 0) 2 ^^^ gmul (a 1) 3 ^^^ a 2 ^^^ a 3 ∧
    byteOf (mixColumns x) (4 * c + 1) = a 0 ^^^ gmul (a 1) 2 ^^^ gmul (a 2) 3 ^^^ a 3 ∧
    byteOf (mixColumns x) (4 * c + 2) = a 0 ^^^ a 1 ^^^ gmul (a 2) 2 ^^^ gmul (a 3) 3 ∧
    byteOf (mixColumns x) (4 * c + 3) = gmul (a 0) 3 ^^^ a 1 ^^^ a 2 ^^^ gmul (a 3) 2 := by
  intro a
  obtain ⟨h0, h1, h2, h3⟩ := mixedRow_eq_gmul a
  have hrow (r : Nat) (hr : r < 4) : byteOf (mixColumns x) (4 * c + r) = mixedRow a r := byteOf_mixColumns x hc hr
  exact ⟨(hrow 0 (by omega)).trans h0, (hrow 1 (by omega)).trans h1, (hrow 2 (by omega)).trans h2,
    (hrow 3 (by omega)).trans h3⟩

/-- Settles O45: the states of the rounds are the values of `cipherRounds`; after `AES.KEYEXP` the cipher is the key's. -/
theorem cipherEncryptsBlock : Obligations.CipherEncryptsBlock := by
  refine ⟨fun x k => ⟨fun i hi => byteOf_subBytes x hi, fun r c hr hc => byteOf_shiftRows x hr hc,
    fun c hc => byteOf_mixColumns_gmul x hc, fun i _ => byteOf_xor x k i⟩, fun b s => ⟨?rounds, fun hlen => ?afterKeyexp⟩⟩
  case rounds =>
    refine ⟨fun r => cipherRounds s.roundKey r 1 (addRoundKey b (s.roundKey 0)), s.ciph b, rfl, fun r hr _ => ?_, rfl, rfl⟩
    obtain ⟨n, rfl⟩ := Nat.exists_eq_add_of_le' hr
    exact (cipherRounds_succ_last ..).trans (by rw [Nat.add_comm 1 n]; rfl)
  case afterKeyexp => exact congrArg (fun ciph => OpResult.block (ciph b)) (opKeyexp_ciph hlen)

end Sys2Proof.Machine
end

section
/-! SUPPORT. Blocks as polynomials over GF(2) modulo x^128 + x^7 + x^2 + x + 1 (R110): `GCM.GFMUL` is the product of the
residues (R111). -/

namespace Sys2Proof.Machine

/-! ## The polynomial of a block -/

open Polynomial in
/-- The reduction polynomial of R110; irreducible, because unifying with powers of x unfolds them. -/
@[irreducible] noncomputable def gcmModulus : (ZMod 2)[X] := X ^ 128 + X ^ 7 + X ^ 2 + X + 1

open Polynomial in
/-- The polynomial of the `n` leftmost bits of a block: bit `X_i` is the coefficient of x^i (R110). -/
noncomputable def blockPoly (b : Block) (n : Nat) : (ZMod 2)[X] :=
  ∑ i ∈ Finset.range n, if b.getMsbD i then X ^ i else 0

open Polynomial in
theorem blockPoly_succ (b : Block) (n : Nat) :
    blockPoly b (n + 1) = blockPoly b n + if b.getMsbD n then X ^ n else 0 :=
  Finset.sum_range_succ ..

theorem blockPoly_xor (a b : Block) (n : Nat) : blockPoly (a ^^^ b) n = blockPoly a n + blockPoly b n := by
  simp only [blockPoly, BitVec.getMsbD_xor, ← Finset.sum_add_distrib]
  refine Finset.sum_congr rfl fun i _ => ?_
  cases a.getMsbD i <;> cases b.getMsbD i <;> simp [CharTwo.add_self_eq_zero]

open Polynomial in
theorem blockPoly_coeff (b : Block) (n i : Nat) :
    (blockPoly b n).coeff i = if i < n ∧ b.getMsbD i = true then 1 else 0 := by
  have hterm (j : Nat) : (if b.getMsbD j then X ^ j else 0 : (ZMod 2)[X]).coeff i =
      if i = j then (if b.getMsbD i then 1 else 0) else 0 := by
    rw [apply_ite (coeff · i), coeff_X_pow, coeff_zero]
    by_cases hij : i = j
    · rw [hij, if_pos rfl, if_pos rfl]
    · rw [if_neg hij, if_neg hij, ite_self]
  rw [blockPoly, finsetSum_coeff, Finset.sum_congr rfl fun j _ => hterm j, Finset.sum_ite_eq]
  simp only [Finset.mem_range, ite_and]

/-- The polynomial of a whole block has a degree below that of the modulus. -/
theorem blockPoly_degree_lt (b : Block) : (blockPoly b 128).degree < 128 := by
  refine (Polynomial.degree_lt_iff_coeff_zero _ 128).mpr fun i hi => ?_
  rw [blockPoly_coeff, if_neg (by omega)]

theorem blockPoly_injective {a b : Block} (h : blockPoly a 128 = blockPoly b 128) : a = b := by
  refine BitVec.eq_of_getMsbD_eq fun i hi => ?_
  have hcoeff := congrArg (fun p => Polynomial.coeff p i) h
  simp only [blockPoly_coeff, hi, true_and] at hcoeff
  cases ha : a.getMsbD i <;> cases hb : b.getMsbD i <;> simp_all

/-! ## The residue of a block -/

open Polynomial in
theorem gcmModulus_degree : gcmModulus.degree = 128 := by
  unfold gcmModulus
  compute_degree!

open Polynomial in
theorem gcmModulus_dvd_iff {p : (ZMod 2)[X]} : gcmModulus ∣ p ↔ X ^ 128 + X ^ 7 + X ^ 2 + X + 1 ∣ p := by
  unfold gcmModulus
  exact Iff.rfl

/-- The residue of a block's polynomial. -/
noncomputable def blockResidue (b : Block) : AdjoinRoot gcmModulus := AdjoinRoot.mk gcmModulus (blockPoly b 128)

theorem blockResidue_xor (a b : Block) : blockResidue (a ^^^ b) = blockResidue a + blockResidue b := by
  simp [blockResidue, blockPoly_xor]

theorem blockResidue_zero : blockResidue 0 = 0 := by simp [blockResidue, blockPoly]

theorem blockResidue_add_self (b : Block) : blockResidue b + blockResidue b = 0 := by
  rw [← blockResidue_xor, BitVec.xor_self]
  exact blockResidue_zero

/-- No two blocks have the same residue: their difference has too low a degree to be a multiple of the modulus. -/
theorem blockResidue_injective : Function.Injective blockResidue := by
  intro a b h
  have hdvd : gcmModulus ∣ blockPoly (a ^^^ b) 128 := by
    rw [← AdjoinRoot.mk_eq_zero]
    change blockResidue (a ^^^ b) = 0
    rw [blockResidue_xor, h, blockResidue_add_self]
  have hzero := Polynomial.eq_zero_of_dvd_of_degree_lt hdvd (by rw [gcmModulus_degree]; exact blockPoly_degree_lt _)
  exact BitVec.xor_eq_zero_iff.mp (blockPoly_injective (hzero.trans (by simp [blockPoly])))

/-- A block with the one bit `X_k` set is the power x^k (R110). -/
theorem blockResidue_singleton {b : Block} {k : Nat} (hk : k < 128) (h : ∀ i < 128, b.getMsbD i = decide (i = k)) :
    blockResidue b = AdjoinRoot.root gcmModulus ^ k := by
  have hpoly : blockPoly b 128 = Polynomial.X ^ k := by
    unfold blockPoly
    have hother (i : Nat) (hi : i ∈ Finset.range 128) (hik : i ≠ k) :
        (if b.getMsbD i then Polynomial.X ^ i else 0 : Polynomial (ZMod 2)) = 0 := by
      simp [h i (Finset.mem_range.mp hi), hik]
    rw [Finset.sum_eq_single_of_mem k (Finset.mem_range.mpr hk) hother, h k hk, decide_eq_true rfl, if_pos rfl]
  rw [blockResidue, hpoly, map_pow, AdjoinRoot.mk_X]

theorem blockResidue_one : blockResidue 0x80000000000000000000000000000000 = 1 :=
  blockResidue_singleton (k := 0) (by decide) (by decide)

/-! ## One round of R111 -/

/-- Multiplication by x as R111 writes it: the shift, and the reduction when the bit `V_127` falls out. -/
def mulX (v : Block) : Block := if v.getMsbD 127 then (v >>> 1) ^^^ gcmR else v >>> 1

theorem gfmulStep_eq (x z v : Block) (i : Nat) :
    gfmulStep x (z, v) i = (if x.getMsbD i then z ^^^ v else z, mulX v) := rfl

open Polynomial in
/-- The right shift is multiplication by x but for the bit that falls out. -/
theorem blockPoly_shiftRight (v : Block) :
    blockPoly (v >>> 1) 128 = X * blockPoly v 128 + if v.getMsbD 127 then X ^ 128 else 0 := by
  have hshift : blockPoly (v >>> 1) 128 = X * blockPoly v 127 := by
    rw [blockPoly, Finset.sum_range_succ', blockPoly, Finset.mul_sum]
    simp only [BitVec.getMsbD_ushiftRight]
    refine (add_eq_left.mpr (by simp)).trans (Finset.sum_congr rfl fun i hi => ?_)
    have hi' : i + 1 < 128 := Nat.succ_lt_succ (Finset.mem_range.mp hi)
    simp [hi', pow_succ', mul_ite]
  rw [hshift, blockPoly_succ v 127, mul_add, add_assoc]
  cases v.getMsbD 127 <;> simp [← pow_succ', CharTwo.add_self_eq_zero]

open Polynomial in
/-- `R` is the modulus without its highest power (R110). -/
theorem blockPoly_gcmR : blockPoly gcmR 128 = gcmModulus + X ^ 128 := by
  have hbits : (Finset.range 128).filter (fun i => gcmR.getMsbD i = true) = {0, 1, 2, 7} := by decide
  have htwo := CharTwo.add_self_eq_zero (X ^ 128 : (ZMod 2)[X])
  have hsum : blockPoly gcmR 128 = 1 + (X + (X ^ 2 + X ^ 7)) := by
    rw [blockPoly, ← Finset.sum_filter, hbits]
    simp
  rw [hsum]
  unfold gcmModulus
  linear_combination -htwo

theorem blockResidue_mulX (v : Block) : blockResidue (mulX v) = AdjoinRoot.root gcmModulus * blockResidue v := by
  have hshift : blockResidue (v >>> 1) = AdjoinRoot.root gcmModulus * blockResidue v +
      if v.getMsbD 127 then AdjoinRoot.root gcmModulus ^ 128 else 0 := by
    rw [blockResidue, blockPoly_shiftRight, map_add, map_mul, AdjoinRoot.mk_X, apply_ite (AdjoinRoot.mk gcmModulus),
      map_pow, AdjoinRoot.mk_X, map_zero]
    rfl
  have hreduce : blockResidue gcmR = AdjoinRoot.root gcmModulus ^ 128 := by
    rw [blockResidue, blockPoly_gcmR, map_add, AdjoinRoot.mk_self, zero_add, map_pow, AdjoinRoot.mk_X]
  unfold mulX
  cases h : v.getMsbD 127
  · rw [if_neg Bool.false_ne_true, hshift, h, if_neg Bool.false_ne_true, add_zero]
  · rw [if_pos rfl, blockResidue_xor, hshift, h, if_pos rfl, ← hreduce, add_assoc, blockResidue_add_self, add_zero]

/-! ## `GCM.GFMUL` -/

/-- The loop of R111 after `n` rounds: the product with the `n` leftmost bits of `x`, and `y` multiplied by x^n. -/
theorem gfmulLoop_residue (x y : Block) (n : Nat) :
    blockResidue ((List.range n).foldl (gfmulStep x) (0, y)).1 =
        AdjoinRoot.mk gcmModulus (blockPoly x n) * blockResidue y ∧
      blockResidue ((List.range n).foldl (gfmulStep x) (0, y)).2 = AdjoinRoot.root gcmModulus ^ n * blockResidue y := by
  induction n with
  | zero => exact ⟨blockResidue_zero.trans (by simp [blockPoly]), by simp⟩
  | succ n ih =>
    obtain ⟨hprod, hpow⟩ := ih
    rw [List.range_succ, List.foldl_append, List.foldl_cons, List.foldl_nil, gfmulStep_eq, blockPoly_succ]
    refine ⟨?_, by rw [blockResidue_mulX, hpow, pow_succ', mul_assoc]⟩
    cases x.getMsbD n
    · simpa using hprod
    · rw [if_pos rfl, if_pos rfl, blockResidue_xor, hprod, hpow, map_add, map_pow, AdjoinRoot.mk_X, add_mul]

/-- `gfmul` is the product of residues (R111). -/
theorem blockResidue_gfmul (x y : Block) : blockResidue (gfmul x y) = blockResidue x * blockResidue y :=
  (gfmulLoop_residue x y 128).1

@[simp] theorem gfmul_zero (x : Block) : gfmul x 0 = 0 :=
  blockResidue_injective (by rw [blockResidue_gfmul, blockResidue_zero, mul_zero])

@[simp] theorem zero_gfmul (x : Block) : gfmul 0 x = 0 :=
  blockResidue_injective (by rw [blockResidue_gfmul, blockResidue_zero, zero_mul])

theorem one_gfmul (y : Block) : gfmul 0x80000000000000000000000000000000 y = y :=
  blockResidue_injective (by rw [blockResidue_gfmul, blockResidue_one, one_mul])

theorem gfmul_comm (x y : Block) : gfmul x y = gfmul y x :=
  blockResidue_injective (by rw [blockResidue_gfmul, blockResidue_gfmul, mul_comm])

theorem gfmul_xor_left (x y z : Block) : gfmul (x ^^^ y) z = gfmul x z ^^^ gfmul y z :=
  blockResidue_injective (by rw [blockResidue_gfmul, blockResidue_xor, blockResidue_xor, blockResidue_gfmul,
    blockResidue_gfmul, add_mul])

/-- Settles O46: the residues make `gfmul` the product, and its laws are those of the quotient ring. -/
theorem gfmulIsFieldProduct : Obligations.GfmulIsFieldProduct := by
  refine ⟨fun _ _ _ => rfl, fun x y => ?product, fun x y z =>
    ⟨gfmul_zero x, zero_gfmul x, one_gfmul y, gfmul_comm x y, gfmul_xor_left x y z⟩⟩
  case product =>
    have hdvd := AdjoinRoot.mk_eq_mk.mp ((blockResidue_gfmul x y).trans (map_mul _ _ _).symm)
    exact gcmModulus_dvd_iff.mp hdvd

end Sys2Proof.Machine
end

section
/-! SUPPORT. GF(2^128) is a field: x^128 + x^7 + x^2 + x + 1 is irreducible, by Rabin's test with the model's own `gfmul`,
so a product of blocks that are not zero is not zero (R111, R125). -/

namespace Sys2Proof.Machine

/-- The square of a block in GF(2^128). -/
def gfsquare (y : Block) : Block := gfmul y y

theorem blockResidue_gfsquare_iterate (n : Nat) (y : Block) :
    blockResidue (gfsquare^[n] y) = blockResidue y ^ 2 ^ n := by
  induction n with
  | zero => simp
  | succ n ih => rw [Function.iterate_succ_apply', gfsquare, blockResidue_gfmul, ih, pow_succ, pow_mul, sq]

/-! ## The powers of x that the test needs, evaluated -/

/-- The block that is x (R110). -/
def blockX : Block := 0x40000000000000000000000000000000

/-- The block that is x^(2^64). -/
def xPowHalf : Block := 0x6f9945a9e519a7229d4c1ad657f8a686

/-- The block that is the inverse of the difference of x^(2^64) and x. -/
def differenceInv : Block := 0x180da934bf53158251c13dbb149f5279

theorem blockResidue_blockX : blockResidue blockX = AdjoinRoot.root gcmModulus :=
  (blockResidue_singleton (k := 1) (by decide) (by decide)).trans (pow_one _)

theorem gfsquare_iterate_blockX : gfsquare^[64] blockX = xPowHalf := by decide +kernel

theorem gfsquare_iterate_xPowHalf : gfsquare^[64] xPowHalf = blockX := by decide +kernel

theorem gfmul_differenceInv :
    gfmul differenceInv (xPowHalf ^^^ blockX) = 0x80000000000000000000000000000000 := by decide +kernel

theorem root_pow_half : AdjoinRoot.root gcmModulus ^ 2 ^ 64 = blockResidue xPowHalf := by
  rw [← blockResidue_blockX, ← blockResidue_gfsquare_iterate, gfsquare_iterate_blockX]

theorem root_pow_full : AdjoinRoot.root gcmModulus ^ 2 ^ 128 = AdjoinRoot.root gcmModulus := by
  rw [show 2 ^ 128 = 2 ^ 64 * 2 ^ 64 from rfl, pow_mul, root_pow_half, ← blockResidue_gfsquare_iterate,
    gfsquare_iterate_xPowHalf, blockResidue_blockX]

/-! ## Rabin's test -/

open Polynomial in
theorem gcmModulus_dvd_full : gcmModulus ∣ X ^ 2 ^ 128 - X := by
  rw [← AdjoinRoot.mk_eq_zero, map_sub, map_pow, AdjoinRoot.mk_X, root_pow_full, sub_self]

open Polynomial in
theorem mk_X_pow_sub_X : AdjoinRoot.mk gcmModulus (X ^ 2 ^ 64 - X) = blockResidue (xPowHalf ^^^ blockX) := by
  rw [map_sub, map_pow, AdjoinRoot.mk_X, root_pow_half, ← blockResidue_blockX, blockResidue_xor, sub_eq_iff_eq_add,
    add_assoc, blockResidue_add_self, add_zero]

open Polynomial in
/-- No irreducible factor of the modulus divides what has an inverse modulo it. -/
theorem not_dvd_of_mk_mul_eq_one {q p u : (ZMod 2)[X]} (hq : Irreducible q) (hdvd : q ∣ gcmModulus)
    (hinv : AdjoinRoot.mk gcmModulus (u * p) = 1) : ¬ q ∣ p := by
  intro hp
  have hmod : gcmModulus ∣ u * p - 1 := AdjoinRoot.mk_eq_mk.mp (hinv.trans (map_one _).symm)
  exact hq.not_isUnit (isUnit_of_dvd_one ((dvd_sub_right (hp.mul_left u)).mp (hdvd.trans hmod)))

open Polynomial in
theorem not_dvd_half {q : (ZMod 2)[X]} (hq : Irreducible q) (hdvd : q ∣ gcmModulus) : ¬ q ∣ X ^ 2 ^ 64 - X := by
  refine not_dvd_of_mk_mul_eq_one (u := blockPoly differenceInv 128) hq hdvd ?_
  rw [map_mul, mk_X_pow_sub_X, ← blockResidue, ← blockResidue_gfmul, gfmul_differenceInv, blockResidue_one]

open Polynomial in
theorem natDegree_dvd_iff_dvd_X_pow_sub_X {q : (ZMod 2)[X]} (hq : Irreducible q) (n : Nat) :
    q.natDegree ∣ n ↔ q ∣ X ^ 2 ^ n - X := by
  have h := hq.natDegree_dvd_iff_dvd_X_pow_card_pow_sub_X (n := n)
  rwa [Nat.card_zmod] at h

/-- An irreducible factor of the modulus has a degree that divides 128 and not 64. -/
theorem natDegree_of_irreducible_dvd {q : Polynomial (ZMod 2)} (hq : Irreducible q) (hdvd : q ∣ gcmModulus) :
    q.natDegree = 2 ^ 7 := by
  have hfull : q.natDegree ∣ 2 ^ (6 + 1) :=
    (natDegree_dvd_iff_dvd_X_pow_sub_X hq 128).mpr (hdvd.trans gcmModulus_dvd_full)
  have hhalf : ¬ q.natDegree ∣ 2 ^ 6 := mt (natDegree_dvd_iff_dvd_X_pow_sub_X hq 64).mp (not_dvd_half hq hdvd)
  exact Nat.eq_prime_pow_of_dvd_least_prime_pow Nat.prime_two hhalf hfull

theorem gcmModulus_irreducible : Irreducible gcmModulus := by
  have hne : gcmModulus ≠ 0 := fun h => by simpa [h] using gcmModulus_degree
  have hdeg : gcmModulus.natDegree = 128 := Polynomial.natDegree_eq_of_degree_eq_some gcmModulus_degree
  have hunit : ¬ IsUnit gcmModulus := fun h => by simpa [hdeg] using Polynomial.natDegree_eq_zero_of_isUnit h
  obtain ⟨q, hq, hdvd⟩ := WfDvdMonoid.exists_irreducible_factor hunit hne
  have hassoc : Associated q gcmModulus := Polynomial.associated_of_dvd_of_natDegree_le hdvd hne
    (hdeg.trans (natDegree_of_irreducible_dvd hq hdvd).symm).le
  exact hassoc.irreducible hq

/-- GF(2^128) has no zero divisors. -/
theorem gfmul_eq_zero_iff (x y : Block) : gfmul x y = 0 ↔ x = 0 ∨ y = 0 := by
  have hdomain : IsDomain (AdjoinRoot gcmModulus) := AdjoinRoot.isDomain_of_prime gcmModulus_irreducible.prime
  rw [← blockResidue_injective.eq_iff, blockResidue_gfmul, blockResidue_zero, mul_eq_zero,
    ← blockResidue_zero, blockResidue_injective.eq_iff, blockResidue_injective.eq_iff]

end Sys2Proof.Machine
end

section
/-! SUPPORT. Counter mode (R112, R116): the bytes of the output, and that counter mode undoes itself. -/

namespace Sys2Proof.Machine

/-! ## `GCM.INC32` -/

theorem byteOf_inc32 (b : Block) {i : Nat} (hi : i < 12) : byteOf (inc32 b) i = byteOf b i := by
  rw [byteOf, inc32, BitVec.extractLsb'_append_eq_of_le (by omega), byteOf]
  apply BitVec.eq_of_getLsbD_eq
  intro j hj
  have hin : 120 - 8 * i - 32 + j < 96 := by omega
  have hback : 32 + (120 - 8 * i - 32 + j) = 120 - 8 * i + j := by omega
  simp [hin, hback]

/-- Settles O47: the increment stays in the low 32 bits, which are bytes 12 to 15. -/
theorem inc32AddsOne : Obligations.Inc32AddsOne :=
  fun b _ => ⟨inc32 b, rfl, fun _ hi => byteOf_inc32 b hi, inc32_counter b⟩

theorem incBy_eq_iterate (n : Nat) (b : Block) : incBy n b = inc32^[n] b := by
  induction n generalizing b with
  | zero => rfl
  | succ n ih => exact ih (inc32 b)

/-! ## `GCM.GCTR` -/

theorem xorBytes_getD {a k : List Byte} {i : Nat} (ha : i < a.length) (hk : i < k.length) :
    (xorBytes a k).getD i 0 = a.getD i 0 ^^^ k.getD i 0 := by
  rw [List.getD_eq_getElem _ _ (by simp; omega), List.getD_eq_getElem _ _ ha, List.getD_eq_getElem _ _ hk]
  simp [xorBytes]

/-- Byte `i` is masked with byte `i` mod 16 of the key-stream block `i` div 16 (R116). -/
theorem gctrLoop_getD (ciph : Block → Block) {n : Nat} {x : List Byte} {i : Nat} (hn : x.length ≤ 16 * n)
    (hi : i < x.length) (cb : Block) :
    (gctrLoop ciph n cb x).getD i 0 = x.getD i 0 ^^^ byteOf (ciph (inc32^[i / 16] cb)) (i % 16) := by
  induction n generalizing cb x i with
  | zero => omega
  | succ n ih =>
    rw [gctrLoop]
    by_cases hfirst : i < 16
    · rw [List.getD_append _ _ _ _ (by simp; omega), xorBytes_getD (by simp; omega) (by simpa using hfirst),
        toBytes_getD _ hfirst, Nat.div_eq_of_lt hfirst, Nat.mod_eq_of_lt hfirst]
      simp [hfirst]
    · obtain ⟨i, rfl⟩ := Nat.exists_eq_add_of_le (Nat.le_of_not_lt hfirst)
      have hchunk : (xorBytes (x.take 16) (toBytes (ciph cb))).length = 16 := by simp; omega
      rw [List.getD_append_right _ _ _ _ (by omega), hchunk, Nat.add_sub_cancel_left,
        ih (by simp; omega) (by simp; omega), Nat.add_div_left i (by omega), Nat.add_mod_left]
      simp

theorem gctr_getD (ciph : Block → Block) (icb : Block) {x : List Byte} {i : Nat} (hi : i < x.length) :
    (gctr ciph icb x).getD i 0 = x.getD i 0 ^^^ byteOf (ciph (inc32^[i / 16] icb)) (i % 16) :=
  gctrLoop_getD ciph (blockCount_bound x.length) hi icb

/-- Counter mode twice with one counter block gives the input back: the masks are the same (R116). -/
theorem gctr_gctr (ciph : Block → Block) (icb : Block) (x : List Byte) : gctr ciph icb (gctr ciph icb x) = x := by
  have hlen : (gctr ciph icb x).length = x.length := gctr_length ciph icb x
  refine List.ext_getElem ((gctr_length ciph icb _).trans hlen) fun i hi hx => ?_
  rw [← List.getD_eq_getElem _ 0 hi, ← List.getD_eq_getElem _ 0 hx, gctr_getD _ _ (hlen.symm ▸ hx), gctr_getD _ _ hx,
    BitVec.xor_assoc, BitVec.xor_self, BitVec.xor_zero]

theorem blockCount_eq_zero_iff (x : List Byte) : blockCount x.length = 0 ↔ x = [] := by
  rw [← List.length_eq_zero_iff, blockCount]
  omega

/-- Settles O49: the bytes of `gctr`, its involution, and the registers that `opGctr` writes. -/
theorem gctrMasksWithKeyStream : Obligations.GctrMasksWithKeyStream := by
  refine fun icb x s => ⟨{ opGctr icb x s with result := .bytes (s.gctrOut icb x) }, s.gctrOut icb x, rfl, rfl,
    gctr_length s.ciph icb x, fun i hi => ?mask, incBy_eq_iterate (blockCount x.length) icb,
    fun hempty => if_pos ((blockCount_eq_zero_iff x).mpr hempty), fun hne => ?last,
    congrArg OpResult.bytes (gctr_gctr s.ciph icb x)⟩
  case mask => exact (gctr_getD s.ciph icb hi).trans (by rw [List.getD_eq_getElem _ _ hi])
  case last =>
    exact (if_neg (mt (blockCount_eq_zero_iff x).mp hne)).trans
      (congrArg s.ciph (incBy_eq_iterate (blockCount x.length - 1) icb))

end Sys2Proof.Machine
end

section
/-! SUPPORT. GHASH (R115): the fold over the pieces of the hashed string, and what a change within one piece does to it. -/

namespace Sys2Proof.Machine

/-- Piece `j` of a string, 16 bytes from byte 16`j` on (R115). -/
def pieceAt (d : List Byte) (j : Nat) : Block := ofBytes ((d.drop (16 * j)).take 16)

theorem pieceAt_drop (d : List Byte) (j : Nat) : pieceAt (d.drop 16) j = pieceAt d (j + 1) := by
  rw [pieceAt, pieceAt, List.drop_drop, Nat.mul_succ, Nat.add_comm]

/-- The loop of R115, taken off at the front, in terms of pieces. -/
theorem ghashLoop_succ (h : Block) (n : Nat) (y : Block) (d : List Byte) :
    ghashLoop h (n + 1) y d = ghashLoop h n (gfmul (y ^^^ pieceAt d 0) h) (d.drop 16) := rfl

theorem ghashLoop_eq_foldl (h : Block) (n : Nat) (y : Block) (d : List Byte) :
    ghashLoop h n y d = (List.range n).foldl (fun y j => gfmul (y ^^^ pieceAt d j) h) y := by
  induction n generalizing y d with
  | zero => rfl
  | succ n ih =>
    rw [ghashLoop_succ, ih, List.range_succ_eq_map, List.foldl_cons, List.foldl_map]
    simp only [pieceAt_drop]

theorem ghashLoop_zero_key (n : Nat) (d : List Byte) : ghashLoop 0 n 0 d = 0 := by
  induction n generalizing d with
  | zero => rfl
  | succ n ih => rw [ghashLoop_succ, gfmul_zero, ih]

/-! ## The hashed string -/

theorem pad16_length (c : List Byte) : (pad16 c).length = 16 * blockCount c.length := by
  simp only [pad16, blockCount, List.length_append, List.length_replicate]
  omega

theorem ghashInput_length (c : List Byte) : (ghashInput c).length = 16 * (blockCount c.length + 1) := by
  simp only [ghashInput, List.length_append, pad16_length, be64_length]
  omega

theorem ghash_eq_ghashLoop (h : Block) (c : List Byte) :
    ghash h c = ghashLoop h (blockCount c.length + 1) 0 (ghashInput c) := by
  rw [ghash, ghashInput_length, Nat.mul_div_cancel_left _ (by omega)]

theorem ghash_nil (h : Block) : ghash h [] = 0 := by
  have hzero : (0 : Block) ^^^ pieceAt (ghashInput []) 0 = 0 := by decide
  exact (congrArg (gfmul · h) hzero).trans (zero_gfmul h)

/-- With `H` zero the hash is zero (R115). -/
theorem ghash_zero_key (c : List Byte) : ghash 0 c = 0 := ghashLoop_zero_key _ _

/-- Settles O48: the loop is the fold over the pieces of the hashed string. -/
theorem ghashFoldsBlocks : Obligations.GhashFoldsBlocks := by
  refine ⟨fun c s => ⟨ghashInput_length c, ?_⟩, ghash_nil, ghash_zero_key⟩
  have hfold : ghash s.hreg c = (List.range ((ghashInput c).length / 16)).foldl
      (fun y j => gfmul (y ^^^ pieceAt (ghashInput c) j) s.hreg) 0 := ghashLoop_eq_foldl ..
  exact congrArg (fun y => Host.Outcome.next { s with yreg := y, result := .block y }) hfold

/-! ## The bytes of a piece -/

theorem pieceAt_length {d : List Byte} {j n : Nat} (hd : d.length = 16 * n) (hj : j < n) :
    ((d.drop (16 * j)).take 16).length = 16 := by
  rw [List.length_take, List.length_drop]
  omega

/-- Strings with the same bytes in a piece have the same piece. -/
theorem pieceAt_congr {d e : List Byte} {j : Nat} (h : ∀ i, i / 16 = j → d[i]? = e[i]?) :
    pieceAt d j = pieceAt e j := by
  refine congrArg ofBytes (List.ext_getElem? fun k => ?_)
  rw [List.getElem?_take, List.getElem?_take, List.getElem?_drop, List.getElem?_drop]
  split
  · exact h _ (by omega)
  · rfl

theorem getElem?_of_pieceAt_eq {d e : List Byte} {n : Nat} (hd : d.length = 16 * n) (he : e.length = 16 * n) {i : Nat}
    (hi : i / 16 < n) (h : pieceAt d (i / 16) = pieceAt e (i / 16)) : d[i]? = e[i]? := by
  have hbytes := congrArg (·[i % 16]?) (ofBytes_injective (pieceAt_length hd hi) (pieceAt_length he hi) h)
  simpa [List.getElem?_take, List.getElem?_drop, Nat.mod_lt i, Nat.div_add_mod i 16] using hbytes

theorem pad16_getElem?_of_lt {a : List Byte} {i : Nat} (hi : i < a.length) : (pad16 a)[i]? = a[i]? :=
  List.getElem?_append_left hi

theorem ghashInput_getElem?_congr {a b : List Byte} (hlen : b.length = a.length) {i : Nat} (h : a[i]? = b[i]?) :
    (ghashInput a)[i]? = (ghashInput b)[i]? := by
  simp only [ghashInput, pad16, List.append_assoc, hlen]
  by_cases hi : i < a.length
  · rw [List.getElem?_append_left hi, List.getElem?_append_left (hlen.symm ▸ hi), h]
  · have ha : a.length ≤ i := Nat.le_of_not_lt hi
    have hb : b.length ≤ i := hlen.symm ▸ ha
    rw [List.getElem?_append_right ha, List.getElem?_append_right hb, hlen]

/-- The pieces of the hashed string before the length block are those of the padded bytes. -/
theorem pieceAt_ghashInput {c : List Byte} {j : Nat} (hj : j < blockCount c.length) :
    pieceAt (ghashInput c) j = pieceAt (pad16 c) j := by
  refine pieceAt_congr fun i hi => ?_
  rw [ghashInput, List.append_assoc, List.getElem?_append_left (by rw [pad16_length]; omega)]

/-! ## A change within one piece -/

/-- With the same pieces, the difference of the accumulators is multiplied by `H` once per piece. -/
theorem ghashLoop_xor_of_pieces_eq (h : Block) {n : Nat} {d e : List Byte} (hsame : ∀ i, pieceAt d i = pieceAt e i)
    (y z : Block) : ghashLoop h n y d ^^^ ghashLoop h n z e = (gfmul · h)^[n] (y ^^^ z) := by
  induction n generalizing d e y z with
  | zero => rfl
  | succ n ih =>
    have hcancel : (y ^^^ pieceAt e 0) ^^^ (z ^^^ pieceAt e 0) = y ^^^ z := by
      rw [xor_left_comm, BitVec.xor_assoc, BitVec.xor_self, BitVec.xor_zero, BitVec.xor_comm]
    rw [ghashLoop_succ, ghashLoop_succ, ih fun i => by rw [pieceAt_drop, pieceAt_drop, hsame], ← gfmul_xor_left, hsame,
      hcancel, Function.iterate_succ_apply]

/-- Strings that differ in piece `j` only: its difference is multiplied by `H` for it and for each piece after it. -/
theorem ghashLoop_xor_of_one_piece (h : Block) {n j : Nat} (hj : j < n) {d e : List Byte}
    (hsame : ∀ i, i ≠ j → pieceAt d i = pieceAt e i) (y : Block) :
    ghashLoop h n y d ^^^ ghashLoop h n y e = (gfmul · h)^[n - j] (pieceAt d j ^^^ pieceAt e j) := by
  induction n generalizing j d e y with
  | zero => omega
  | succ n ih =>
    rw [ghashLoop_succ, ghashLoop_succ]
    cases j with
    | zero =>
      have hcancel : (y ^^^ pieceAt d 0) ^^^ (y ^^^ pieceAt e 0) = pieceAt d 0 ^^^ pieceAt e 0 := by
        rw [BitVec.xor_comm y, BitVec.xor_assoc, ← BitVec.xor_assoc y, BitVec.xor_self, BitVec.zero_xor]
      have hrest (i : Nat) : pieceAt (d.drop 16) i = pieceAt (e.drop 16) i := by
        rw [pieceAt_drop, pieceAt_drop, hsame _ (by omega)]
      rw [ghashLoop_xor_of_pieces_eq h hrest, ← gfmul_xor_left, hcancel]
      rfl
    | succ j =>
      have hrest (i : Nat) (hi : i ≠ j) : pieceAt (d.drop 16) i = pieceAt (e.drop 16) i := by
        rw [pieceAt_drop, pieceAt_drop, hsame _ (by omega)]
      rw [hsame 0 (by omega), ih (by omega) hrest, pieceAt_drop, pieceAt_drop, Nat.add_sub_add_right]

/-- A change within block `j` multiplies its difference by `H` once for it and once for each later piece (R125). -/
theorem ghash_xor {h : Block} {a b : List Byte} {j : Nat} (hlen : b.length = a.length) (hj : j < blockCount a.length)
    (hsame : ∀ i, i / 16 ≠ j → a[i]? = b[i]?) :
    ghash h a ^^^ ghash h b =
      (gfmul · h)^[blockCount a.length - j + 1] (pieceAt (pad16 a) j ^^^ pieceAt (pad16 b) j) := by
  have hpieces (i : Nat) (hi : i ≠ j) : pieceAt (ghashInput a) i = pieceAt (ghashInput b) i :=
    pieceAt_congr fun k hk => ghashInput_getElem?_congr hlen (hsame k (hk ▸ hi))
  rw [ghash_eq_ghashLoop, ghash_eq_ghashLoop, hlen, ghashLoop_xor_of_one_piece h (by omega) hpieces,
    pieceAt_ghashInput hj, pieceAt_ghashInput (hlen ▸ hj), Nat.sub_add_comm hj.le]

theorem gfmul_iterate_eq_zero_iff (h y : Block) (n : Nat) : (gfmul · h)^[n + 1] y = 0 ↔ y = 0 ∨ h = 0 := by
  induction n generalizing y with
  | zero => exact gfmul_eq_zero_iff y h
  | succ n ih => rw [Function.iterate_succ_apply, ih, gfmul_eq_zero_iff, or_assoc, or_self]

/-- Two strings that differ within one block have the same hash if and only if `H` is zero (R125). -/
theorem ghash_eq_iff {h : Block} {a b : List Byte} {j : Nat} (hlen : b.length = a.length) (hne : a ≠ b)
    (hsame : ∀ i, i / 16 ≠ j → a[i]? = b[i]?) : ghash h a = ghash h b ↔ h = 0 := by
  obtain ⟨i, hi⟩ : ∃ i, a[i]? ≠ b[i]? := by
    by_contra hall
    exact hne (List.ext_getElem? fun i => by_contra fun hi => hall ⟨i, hi⟩)
  have hblock : i / 16 = j := by_contra fun hij => hi (hsame i hij)
  have hbound : i < a.length := by
    by_contra hout
    exact hi (by rw [List.getElem?_eq_none (by omega), List.getElem?_eq_none (by omega)])
  have hj : j < blockCount a.length := by
    unfold blockCount
    omega
  have hdiff : pieceAt (pad16 a) j ^^^ pieceAt (pad16 b) j ≠ 0 := by
    intro hzero
    have hpiece := BitVec.xor_eq_zero_iff.mp hzero
    rw [← hblock] at hpiece hj
    have hbyte := getElem?_of_pieceAt_eq (pad16_length a) (hlen ▸ pad16_length b) hj hpiece
    rw [pad16_getElem?_of_lt hbound, pad16_getElem?_of_lt (hlen.symm ▸ hbound)] at hbyte
    exact hi hbyte
  rw [← BitVec.xor_eq_zero_iff, ghash_xor hlen hj hsame]
  exact (gfmul_iterate_eq_zero_iff h _ _).trans (or_iff_right hdiff)

end Sys2Proof.Machine
end

section
/-! SUPPORT. `GCM_AE` and `GCM_AD` as functions: the round trip (R124) and what is rejected (R125). -/

namespace Sys2Proof.Machine

/-! ## The two functions by parts -/

/-- The tag of the encrypted bytes `c` (R119, R122). -/
def tagUnder (ciph : Block → Block) (n : Nonce) (c : List Byte) : Block :=
  gcmTagOf ciph (preCounter n) (ghash (ciph 0) c)

theorem gcmAe_take (ciph : Block → Block) (n : Nonce) (p : List Byte) :
    (gcmAe ciph n p).take p.length = gctr ciph (inc32 (preCounter n)) p :=
  List.take_left' (gctr_length ..)

theorem gcmAe_drop (ciph : Block → Block) (n : Nonce) (p : List Byte) :
    (gcmAe ciph n p).drop p.length = toBytes (tagUnder ciph n (gctr ciph (inc32 (preCounter n)) p)) :=
  List.drop_left' (gctr_length ..)

/-- `GCM_AD` of encrypted bytes and 16 bytes in place of the tag accepts exactly the tag (R123). -/
theorem gcmAd_append (ciph : Block → Block) (n : Nonce) (c : List Byte) {t : List Byte} (ht : t.length = 16) :
    gcmAd ciph n (c ++ t) =
      if ofBytes t = tagUnder ciph n c then some (gctr ciph (inc32 (preCounter n)) c) else none := by
  have hlen : (c ++ t).length - 16 = c.length := by rw [List.length_append]; omega
  unfold gcmAd
  simp only [hlen, List.take_left, List.drop_left]
  exact if_congr (tagEq_iff _ _) rfl rfl

/-- `GCM_AD` of a string of at least 16 bytes by its two parts (R123). -/
theorem gcmAd_eq (ciph : Block → Block) (n : Nonce) {ct : List Byte} (h : 16 ≤ ct.length) :
    gcmAd ciph n ct =
      if ofBytes (ct.drop (ct.length - 16)) = tagUnder ciph n (ct.take (ct.length - 16)) then
        some (gctr ciph (inc32 (preCounter n)) (ct.take (ct.length - 16))) else none := by
  rw [← gcmAd_append _ _ _ (by rw [List.length_drop]; omega), List.take_append_drop]

theorem gcmAd_isSome (ciph : Block → Block) (n : Nonce) {ct : List Byte} (h : 16 ≤ ct.length) :
    (gcmAd ciph n ct).isSome =
      tagEq (ofBytes (ct.drop (ct.length - 16))) (tagUnder ciph n (ct.take (ct.length - 16))) := by
  rw [gcmAd_eq ciph n h, Bool.eq_iff_iff, tagEq_iff, Option.isSome_ite]

theorem eq_gctr_of_gcmAd {ciph : Block → Block} {n : Nonce} {ct q : List Byte} (h : 16 ≤ ct.length)
    (hq : gcmAd ciph n ct = some q) : q = gctr ciph (inc32 (preCounter n)) (ct.take (ct.length - 16)) := by
  rw [gcmAd_eq ciph n h, Option.ite_none_right_eq_some] at hq
  exact (Option.some.inj hq.right).symm

/-- Settles O53: the tag is the one computed again, and counter mode undoes itself. -/
theorem gcmRoundTrip : Obligations.GcmRoundTrip := by
  intro key n p _
  rw [← List.take_append_drop p.length (gcmAe (cipherUnder key) n p), gcmAe_take, gcmAe_drop,
    gcmAd_append _ _ _ (toBytes_length _), ofBytes_toBytes, if_pos rfl, gctr_gctr]

/-- Settles O54: the tag computed is that of the encrypted bytes, and 16 bytes are the bytes of one block only. -/
theorem alteredTagRejected : Obligations.AlteredTagRejected := by
  intro ciph n p t ht hne
  rw [gcmAe_drop] at hne
  rw [gcmAe_take, gcmAd_append _ _ _ ht, if_neg]
  intro heq
  exact hne (by rw [← heq, toBytes_ofBytes t ht])

/-! ## A change within one block -/

/-- `GCM_AD` of other encrypted bytes with the tag accepts if and only if the two hashes agree. -/
theorem gcmAd_altered (ciph : Block → Block) (n : Nonce) (p a : List Byte) :
    gcmAd ciph n (a ++ (gcmAe ciph n p).drop p.length) =
      if ghash (ciph 0) a = ghash (ciph 0) ((gcmAe ciph n p).take p.length) then
        some (gctr ciph (inc32 (preCounter n)) a) else none := by
  have hinj (u v : Block) : ciph (preCounter n) ^^^ u = ciph (preCounter n) ^^^ v ↔ v = u := by
    rw [BitVec.xor_right_inj, eq_comm]
  rw [gcmAe_drop, gcmAe_take, gcmAd_append _ _ _ (toBytes_length _), ofBytes_toBytes]
  simp only [tagUnder, gcmTagOf, hinj]

/-- Settles O55: GHASH is linear in each block, and GF(2^128) has no zero divisors. -/
theorem alteredCiphertextHash : Obligations.AlteredCiphertextHash := by
  refine ⟨fun h a b j hlen hj hsame => ghash_xor hlen hj hsame, ?rejected, ?accepted⟩
  case rejected =>
    intro ciph n p a j enc tag hlen hne hsame
    have henc : enc.length = a.length := by
      rw [hlen]
      exact (congrArg List.length (gcmAe_take ciph n p)).trans (gctr_length ..)
    have hhash : ghash (ciph 0) a = ghash (ciph 0) enc ↔ ciph 0 = 0 := ghash_eq_iff henc hne hsame
    rw [gcmAd_altered, ite_eq_right_iff]
    simp only [reduceCtorEq, imp_false]
    exact not_congr hhash
  case accepted =>
    intro ciph n p a hzero _
    exact ⟨_, by rw [gcmAd_altered, hzero, ghash_zero_key, ghash_zero_key, if_pos rfl]⟩

end Sys2Proof.Machine
end

section
/-! SUPPORT. The operations of `GCME` run by themselves (R117 to R121) and one after another (R122, R123). -/

namespace Sys2Proof.Machine

/-- Settles O51: `tagEq` is equality (R121). -/
theorem tageqIsEquality : Obligations.TageqIsEquality := by
  intro t s
  have hbit : tagEq t s.tagc = decide (t = s.tagc) := Bool.eq_iff_iff.mpr (by rw [tagEq_iff, decide_eq_true_iff])
  exact congrArg (fun b => Host.Outcome.next { s with result := .bit b }) hbit

theorem byteOf_preCounter (n : Nonce) {i : Nat} (hi : i < 12) : byteOf (preCounter n) i = n[i] := by
  rw [preCounter, byteOf_ofBytes _ (by simp) i (by simp; omega), List.getElem_append_left (by simpa using hi)]
  simp

/-- Settles O50: the registers that `opInit` and `opTag` write, and the bytes of the pre-counter block. -/
theorem initAndTagWriteScratch : Obligations.InitAndTagWriteScratch :=
  ⟨fun n s =>
      ⟨{ opInit n s with result := .none }, rfl, rfl, fun _ hi => byteOf_preCounter n hi, preCounter_counter n⟩,
    fun _ _ => rfl⟩

/-! ## The operations one after another -/

theorem transact_gcmGctr (icb : Block) (x : List Byte) (s : State) :
    transact (.gcmGctr icb x) s = { opGctr icb x s with result := .bytes (gctr s.ciph icb x) } := rfl

theorem transact_gcmGhash (c : List Byte) (s : State) :
    transact (.gcmGhash c) s = { opGhash c s with result := .block (ghash s.hreg c) } := rfl

theorem transact_gcmTag (hash : Block) (s : State) :
    transact (.gcmTag hash) s = { opTag hash s with result := .block (s.ciph s.j0 ^^^ hash) } := rfl

/-- The registers of a message: the cipher is the key's, `H` and `J0` are those of `GCM.INIT` (R117, R118). -/
def State.Initialised (s : State) (ciph : Block → Block) (n : Nonce) : Prop :=
  s.ciph = ciph ∧ s.hreg = ciph 0 ∧ s.j0 = preCounter n

/-- `AES.KEYEXP` and then `GCM.INIT` set up the registers of a message under the key held. -/
theorem initialised_init_keyexp {s : State} (h : s.keylen = 16 ∨ s.keylen = 32) (n : Nonce) :
    (transact (.gcmInit n) (transact .aesKeyexp s)).Initialised (cipherUnder s.keyBytes) n := by
  have hciph := opKeyexp_ciph h
  exact ⟨hciph, congrFun hciph 0, rfl⟩

section
variable {s : State} {ciph : Block → Block} {n : Nonce}

/-! What the later operations return; none of them writes the registers that `Initialised` speaks of. -/

theorem initialised_gctr (h : s.Initialised ciph n) (icb : Block) (x : List Byte) :
    (transact (.gcmGctr icb x) s).Initialised ciph n := h

theorem initialised_ghash (h : s.Initialised ciph n) (c : List Byte) : (transact (.gcmGhash c) s).Initialised ciph n := h

theorem initialised_tag (h : s.Initialised ciph n) (hash : Block) : (transact (.gcmTag hash) s).Initialised ciph n := h

theorem initialised_tageq (h : s.Initialised ciph n) (t : Block) : (transact (.gcmTageq t) s).Initialised ciph n := h

theorem transact_gcmGctr_result (h : s.Initialised ciph n) (x : List Byte) :
    (transact (.gcmGctr (inc32 s.j0) x) s).result = .bytes (gctr ciph (inc32 (preCounter n)) x) := by
  obtain ⟨hciph, _, hj0⟩ := h
  rw [transact_gcmGctr, hciph, hj0]

theorem transact_gcmGhash_yreg (h : s.Initialised ciph n) (c : List Byte) :
    (transact (.gcmGhash c) s).yreg = ghash (ciph 0) c := by
  obtain ⟨_, hhreg, _⟩ := h
  rw [transact_gcmGhash, ← hhreg]
  rfl

theorem transact_gcmTag_tagc (h : s.Initialised ciph n) (hash : Block) :
    (transact (.gcmTag hash) s).tagc = gcmTagOf ciph (preCounter n) hash := by
  obtain ⟨hciph, _, hj0⟩ := h
  rw [transact_gcmTag, ← hciph, ← hj0]
  rfl

/-- `GCM.GHASH`, then `GCM.TAG` of the accumulator, leave the tag of the bytes in `TAGC` (R115, R119). -/
theorem transact_tag_ghash_tagc (h : s.Initialised ciph n) (c : List Byte) :
    (transact (.gcmTag (transact (.gcmGhash c) s).yreg) (transact (.gcmGhash c) s)).tagc = tagUnder ciph n c := by
  rw [transact_gcmTag_tagc (initialised_ghash h c), transact_gcmGhash_yreg h, tagUnder]

end

/-- Settles O57: after `AES.KEYEXP` and `GCM.INIT` each operation returns the function's value under the key held. -/
theorem operationsComputeGcm : Obligations.OperationsComputeGcm := by
  intro s n p ct hkey ciph s1 s2
  have hinit : s1.Initialised ciph n := initialised_init_keyexp hkey n
  clear_value s1
  refine ⟨⟨gctr ciph (inc32 (preCounter n)) p, transact_gcmGctr_result hinit p, ?encrypt⟩, fun hlen => ?decrypt⟩
  case encrypt =>
    have htag := transact_tag_ghash_tagc (initialised_gctr hinit (inc32 s1.j0) p) (gctr ciph (inc32 (preCounter n)) p)
    exact congrArg (fun t => gctr ciph (inc32 (preCounter n)) p ++ toBytes t) htag
  case decrypt =>
    intro c s3 s4
    have hs4 : s4.Initialised ciph n := initialised_tageq (initialised_tag (initialised_ghash hinit c) s3.yreg) _
    have hbit : s4.result = .bit (tagEq (ofBytes (ct.drop (ct.length - 16))) (tagUnder ciph n c)) :=
      congrArg (fun t => OpResult.bit (tagEq (ofBytes (ct.drop (ct.length - 16))) t)) (transact_tag_ghash_tagc hinit c)
    refine ⟨hbit.trans (congrArg OpResult.bit (gcmAd_isSome ciph n hlen).symm), fun q hq => ?_⟩
    rw [transact_gcmGctr_result hs4 c, eq_gctr_of_gcmAd hlen hq]

end Sys2Proof.Machine
end

section
/-! SUPPORT. `NGEN` (R131, R132, R136): a draw run by itself, the deterministic providers, and the one request that a
`SEAL` makes. -/

namespace Sys2Proof.Machine

/-! ## A draw run by itself -/

theorem exec_ngenDraw_answered {s : State} {n : Nonce} (h : s.rbpReq = .answered (.ok n)) :
    exec .ngenDraw s = .next { s with rbpReq := .idle, result := .nonce n } := by
  rw [exec, execNgenDraw, h]

theorem exec_ngenDraw_fail {s : State} (h : s.rbpReq = .answered .fail) :
    exec .ngenDraw s = .next (raiseError .randomnessFailure s) := by
  rw [exec, execNgenDraw, h]

theorem exec_ngenDraw_idle {s : State} (h : s.rbpReq = .idle) : exec .ngenDraw s = .next (issueRequest s) := by
  rw [exec, execNgenDraw, h]

theorem exec_ngenDraw_waiting {s : State} {k : Nat} (h : s.rbpReq = .waiting k) : exec .ngenDraw s = .next s := by
  rw [exec, execNgenDraw, h]

/-- Settles O52: one equation of `NGEN.DRAW` for each stage of its request. -/
theorem drawReturnsAnswer : Obligations.DrawReturnsAnswer :=
  fun _ => ⟨fun _ => exec_ngenDraw_answered, exec_ngenDraw_fail, exec_ngenDraw_idle, fun _ => exec_ngenDraw_waiting⟩

/-! ## The deterministic providers -/

/-- A byte string read most significant byte first is its reverse read least significant byte first (R13, R55). -/
theorem intBe_reverse (l : List Byte) : intBe l.reverse = natLE l := by
  induction l with
  | nil => rfl
  | cons b l ih =>
    have hlast : intBe (l.reverse ++ [b]) = intBe l.reverse * 256 + b.toNat := by simp [intBe]
    rw [List.reverse_cons, hlast, ih, natLE]
    omega

theorem nonceOfNat_toList (n : Nat) : (nonceOfNat n).toList = (bytesLE 12 n).reverse := by
  simp [nonceOfNat, bytesLE, Nat.div_div_eq_div_mul]

/-- The 12 bytes hold the integer (R136). -/
theorem intBe_nonceOfNat (n : Nat) : intBe (nonceOfNat n).toList = n % 2 ^ 96 := by
  rw [nonceOfNat_toList, intBe_reverse, natLE_bytesLE]
  norm_num

/-- Settles O31: the nonces of `DetCounter` hold `seed + k` modulo 2^96, which tells near request numbers apart. -/
theorem deterministicProviders : Obligations.DeterministicProviders := by
  have hvalue (seed : Nonce) (k : Nat) : intBe (nonceOfNat ((intBe seed.toList + k) % 2 ^ 96)).toList =
      (intBe seed.toList + k) % 2 ^ 96 := by rw [intBe_nonceOfNat, Nat.mod_mod]
  refine ⟨fun answers k d => List.getD_eq_getElem?_getD, fun seed k d => ⟨_, rfl, hvalue seed k⟩,
    fun seed j k d hlt hnear heq => ?_⟩
  have hsame : (intBe seed.toList + j) % 2 ^ 96 = (intBe seed.toList + k) % 2 ^ 96 := by
    rw [← hvalue seed j, ← hvalue seed k, Answer.ok.inj heq]
  omega

/-! ## What the host has no hand in -/

/-- What no transaction touches: the parameters, the request to the RBP, the count of requests, the events to come. -/
def State.offBus (s : State) : Params × RbpRequest × Nat × List Event := (s.params, s.rbpReq, s.rbpRequests, s.events)

theorem popData_offBus (s : State) : (popData s).offBus = s.offBus := by
  unfold popData
  split <;> rfl

theorem startCommand_offBus (c : RunCmd) (s : State) : (startCommand c s).offBus = s.offBus := by
  unfold startCommand
  split <;> rfl

theorem hostEffect_offBus {i : Instr} {s t : State} (h : HostEffect i s t) : t.offBus = s.offBus := by
  cases h with
  | read b => rfl
  | pop => exact popData_offBus s
  | ctrl v => rfl
  | keyin v => unfold pushKey; split <;> rfl
  | noncein v => unfold pushNonce; split <;> rfl
  | din v => unfold pushData; split <;> rfl
  | start => exact startCommand_offBus .sealing s
  | startOpen => exact startCommand_offBus .opening s
  | clear => unfold clearCore; split <;> rfl
  | ignore => rfl

theorem stepEffect_offBus {s t : State} {e : Event} (h : StepEffect s e t) (hu : ∀ u, e ≠ .turn u) (hr : e ≠ .reset) :
    t.offBus = s.offBus := by
  cases h with
  | host _ _ ht => exact hostEffect_offBus ht
  | illegal => rfl
  | outside => rfl
  | reserved => rfl
  | turn u => exact absurd rfl (hu u)
  | reset => exact absurd rfl hr

theorem stepEffect_turn_eq {s t : State} {u : Turn} (h : StepEffect s (.turn u) t) : t = takeTurn s u := by
  cases h with
  | host hi => cases hi
  | illegal _ _ hu => exact absurd rfl (hu u)
  | outside _ _ hu => exact absurd rfl (hu u)
  | turn => rfl

theorem stepEffect_reset_eq {s t : State} (h : StepEffect s .reset t) : t = resetCore s := by
  cases h with
  | host hi => cases hi
  | illegal _ hr => exact absurd rfl hr
  | outside _ hr => exact absurd rfl hr
  | reset => rfl

/-! ## One request -/

/-- The RBP counts a request at its own turn when one is pending that it has not received (R131, R132). -/
theorem requestTurn_rbpRequests (s : State) : (requestTurn s).rbpRequests =
    s.rbpRequests + if s.drawPending = true ∧ s.rbpReq = .idle then 1 else 0 := by
  split_ifs with h
  · rw [requestTurn_pending h.1 h.2]
    rfl
  · rw [requestTurn_nothing_to_receive (not_and_or.mp h)]
    rfl

/-- The answer adds nothing to the count of `requestTurn`, which `rbpTurn` begins with. -/
theorem rbpTurn_rbpRequests (d : Answer) (s : State) : (rbpTurn d s).rbpRequests = (requestTurn s).rbpRequests := by
  unfold rbpTurn
  dsimp only
  split <;> rfl

/-- While the command runs on, its request goes forward only: received, and then answered (R36, R132). -/
theorem takeTurn_busy_rbpReq {s : State} {u : Turn} (h : (takeTurn s u).phase = .busy) :
    (takeTurn s u).rbpReq = s.rbpReq ∨ s.rbpReq = .idle ∨ ∃ a, (takeTurn s u).rbpReq = .answered a := by
  cases u with
  | engine => exact .inl (congrArg State.rbpReq (engineTurn_eq_of_busy h))
  | request =>
    rcases requestTurn_cases s with ⟨_, hi, _⟩ | ⟨_, he⟩
    · exact .inr (.inl hi)
    · exact .inl (congrArg State.rbpReq he)
  | rbp d =>
    rcases rbpTurn_cases d s with ⟨_, hi, _⟩ | ⟨_, _, he⟩ | ⟨_, he⟩
    · exact .inr (.inl hi)
    · exact .inr (.inr ⟨_, congrArg State.rbpReq he⟩)
    · exact .inl (congrArg State.rbpReq he)
  | otherRequest => exact .inl rfl

theorem stepEffect_busy_rbpReq {s t : State} {e : Event} (h : StepEffect s e t) (hbusy : t.phase = .busy) :
    t.rbpReq = s.rbpReq ∨ s.rbpReq = .idle ∨ ∃ a, t.rbpReq = .answered a := by
  cases e with
  | word w => exact .inl (congrArg (·.2.1) (stepEffect_offBus h (by simp) (by simp)))
  | busAccess wr size addr data => exact .inl (congrArg (·.2.1) (stepEffect_offBus h (by simp) (by simp)))
  | turn u =>
    obtain rfl := stepEffect_turn_eq h
    exact takeTurn_busy_rbpReq hbusy
  | reset =>
    obtain rfl := stepEffect_reset_eq h
    cases hbusy

/-- Settles O28: only the turns of the RBP count, and a request does not go back. -/
theorem oneRequestPerSeal : Obligations.OneRequestPerSeal := by
  intro s t e l _ he hstep drawing
  have heffect := step_stepEffect he hstep
  have hdrawing : ({ s with events := l } : State).drawPending = true ∧ s.rbpReq = .idle ↔ drawing := by
    rw [drawPending_iff_registers, and_assoc, and_assoc, and_assoc]
  have hturn := requestTurn_rbpRequests { s with events := l }
  simp only [hdrawing] at hturn
  refine ⟨?count, fun hreq hbusy => ?kept⟩
  case count =>
    cases e with
    | word w => exact congrArg (·.2.2.1) (stepEffect_offBus heffect (by simp) (by simp))
    | busAccess wr size addr data => exact congrArg (·.2.2.1) (stepEffect_offBus heffect (by simp) (by simp))
    | reset =>
      obtain rfl := stepEffect_reset_eq heffect
      rfl
    | turn u =>
      obtain rfl := stepEffect_turn_eq heffect
      cases u with
      | engine => exact engineTurn_rbpRequests _
      | request => exact hturn
      | rbp d => exact (rbpTurn_rbpRequests d _).trans hturn
      | otherRequest => rfl
  case kept =>
    rcases stepEffect_busy_rbpReq heffect hbusy with hsame | hidle | ⟨a, ha⟩
    · exact hsame ▸ hreq
    · exact absurd hidle hreq
    · simp [ha]

end Sys2Proof.Machine
end

section
/-! SUPPORT. Progress (R135, R240): well-formed events have a next state, and a running command that needs no answer, or
has it, ends at the next turn of the Engine. -/

namespace Sys2Proof.Machine

/-! ## Well-formed events have a next state -/

theorem runDecoded_decodeTransaction_next (a : Transaction) (s : State) :
    ∃ t, runDecoded (decodeTransaction a) s = .next t := by
  rcases decodeTransaction_cases a with ⟨i, hi, hd⟩ | hd <;> rw [hd]
  · obtain ⟨t, ht, _⟩ := exec_host hi s
    exact ⟨t, ht⟩
  · exact ⟨_, rfl⟩

theorem runDecoded_decodeCommand_next (v : Word) (s : State) : ∃ t, runDecoded (decodeCommand v) s = .next t := by
  unfold decodeCommand
  split_ifs <;> exact ⟨_, rfl⟩

theorem runBusAccess_next (wr : Bool) (size : AccessSize) (addr : Nat) (data : Word) (s : State) :
    ∃ t, runBusAccess wr size addr data s = .next t := by
  unfold runBusAccess
  split
  · exact ⟨s, rfl⟩
  · exact runDecoded_decodeTransaction_next _ s

/-- In a state that holds no value of U8 an event that is no malformed text has a next state (R243). -/
theorem runEvent_wellFormed_next {e : Event} {s : State} (hheld : s.held = true) (hwf : e.wellFormed = true) :
    ∃ t, runEvent e s = .next t := by
  rw [runEvent_held hheld]
  cases e with
  | word w =>
    cases w with
    | htw w =>
      cases hp : parseHtw w with
      | error d => simp [Event.wellFormed, hp, Except.toBool] at hwf
      | ok a => simpa only [decode_htw hp] using runDecoded_decodeTransaction_next a s
    | command v => exact runDecoded_decodeCommand_next v s
  | busAccess wr size addr data => exact runBusAccess_next wr size addr data s
  | turn u => exact ⟨_, rfl⟩
  | reset => exact ⟨_, rfl⟩

/-! ## A running command and the events to come -/

theorem takeTurn_params_events (s : State) (u : Turn) :
    (takeTurn s u).params = s.params ∧ (takeTurn s u).events = s.events := by
  cases u with
  | engine => exact ⟨congrArg (·.2.1) (engineTurn_frame s), congrArg (·.2.2.2) (engineTurn_frame s)⟩
  | request =>
    rcases requestTurn_cases s with ⟨_, _, he⟩ | ⟨_, he⟩ <;> rw [takeTurn, he] <;> exact ⟨rfl, rfl⟩
  | rbp d =>
    rcases rbpTurn_cases d s with ⟨_, _, he⟩ | ⟨_, _, he⟩ | ⟨_, he⟩ <;> rw [takeTurn, he] <;> exact ⟨rfl, rfl⟩
  | otherRequest => exact ⟨rfl, rfl⟩

/-- No event changes the parameters or the events to come (R9, R62). -/
theorem stepEffect_params_events {s t : State} {e : Event} (h : StepEffect s e t) :
    t.params = s.params ∧ t.events = s.events := by
  cases h with
  | host _ _ ht => exact ⟨congrArg (·.1) (hostEffect_offBus ht), congrArg (·.2.2.2) (hostEffect_offBus ht)⟩
  | illegal => exact ⟨rfl, rfl⟩
  | outside => exact ⟨rfl, rfl⟩
  | reserved => exact ⟨rfl, rfl⟩
  | turn u => exact takeTurn_params_events s u
  | reset => exact ⟨rfl, rfl⟩

/-- A command runs, with the events `l` to come. -/
structure State.Runs (s : State) (l : List Event) : Prop where
  inv : s.Inv
  busy : s.phase = .busy
  events : s.events = l

/-- The running command waits for no answer: an `OPEN`, or a `SEAL` that fails a check or has its answer (R135). -/
def State.Ready (s : State) : Prop := s.runcmd = .opening ∨ sealCheck s ≠ none ∨ ∃ a, s.rbpReq = .answered a

theorem State.Ready.of_inputs {s t : State} (h : s.Ready) (hinputs : t.inputs = s.inputs)
    (hparams : t.params = s.params) (hanswer : ∀ a, s.rbpReq = .answered a → ∃ b, t.rbpReq = .answered b) :
    t.Ready := by
  obtain ⟨_, hkeylen, _, _, _, hilen, hruncmd⟩ := (inputs_eq_iff s t).mp hinputs
  have hcheck : sealCheck t = sealCheck s := by
    unfold sealCheck State.badKeyLength
    rw [hkeylen, hilen, hparams]
  exact h.imp hruncmd.trans (Or.imp hcheck.trans_ne fun ⟨a, ha⟩ => hanswer a ha)

/-- `Complete` of a command that waits for no answer commits (R10, R141, R151). -/
theorem State.Ready.engineTurn_done {s : State} (h : s.Ready) (hrun : s.runcmd ≠ .none)
    (hbusy : s.phase = .busy) : (engineTurn s).phase = .done := by
  rcases engineTurn_cases s with ⟨_, hseal, he⟩ | ⟨_, _, he⟩ | ⟨hnot, _⟩
  · rw [he]
    rcases completeSeal_cases s with ⟨_, _, hc⟩ | ⟨hcheck, hwait, _⟩ | ⟨_, _, hc⟩ | ⟨_, _, _, hc⟩
    · rw [hc, raiseError_phase]
    · rcases h with hopen | hfails | ⟨a, ha⟩
      · exact absurd (hseal.symm.trans hopen) (by simp)
      · exact absurd hcheck hfails
      · exact absurd ha (hwait a)
    · rw [hc, raiseError_phase]
    · rw [hc]
      rfl
  · rw [he]
    exact (completeOpen_phase_ie s).1
  · exact absurd hnot (not_or.mpr ⟨not_not.mpr hbusy, hrun⟩)

/-- After a turn at which the RBP may answer, a running command waits for no answer (R131, R135). -/
theorem ready_rbpTurn {s : State} (hrun : s.runcmd ≠ .none) (hbusy : s.phase = .busy) (d : Answer) :
    (rbpTurn d s).Ready := by
  rcases rbpTurn_cases d s with ⟨_, _, he⟩ | ⟨_, _, he⟩ | ⟨hsettled, he⟩ <;> rw [he]
  · exact .inr (.inr ⟨_, rfl⟩)
  · exact .inr (.inr ⟨_, rfl⟩)
  · rcases hsettled with ⟨hnot, _⟩ | hanswered
    · cases hr : s.runcmd with
      | none => exact absurd hr hrun
      | opening => exact .inl hr
      | sealing =>
        refine .inr (.inl fun hcheck => ?_)
        rw [(drawPending_iff s).mpr ⟨hbusy, hr, hcheck⟩] at hnot
        cases hnot
    · exact .inr (.inr hanswered)

/-- One event but a reset ends the running command, or leaves it running and as ready as it was. -/
theorem State.Runs.event {s : State} {e : Event} {l : List Event} (h : s.Runs (e :: l)) (hwf : e.wellFormed = true)
    (hreset : e ≠ .reset) :
    ∃ t, step s = .next t ∧ (t.phase = .done ∨ (t.Runs l ∧ (s.Ready → t.Ready))) := by
  obtain ⟨hinv, hbusy, he⟩ := h
  obtain ⟨t, ht⟩ := runEvent_wellFormed_next (s := { s with events := l }) hinv.held hwf
  have hstep : step s = .next t := (step_cons he).trans ht
  have heffect := step_stepEffect he hstep
  obtain ⟨hparams, hevents⟩ := stepEffect_params_events heffect
  refine ⟨t, hstep, ?_⟩
  by_cases hstays : t.phase = .busy
  · have hinputs : t.inputs = s.inputs := stepEffect_busy_inputs (s := { s with events := l }) heffect hbusy hstays
    refine .inr ⟨⟨stepKeepsInvariant s t hinv hstep, hstays, hevents⟩, fun hready =>
      hready.of_inputs hinputs hparams fun a ha => ?_⟩
    rcases stepEffect_busy_rbpReq heffect hstays with hsame | hidle | hanswered
    · exact ⟨a, hsame.trans ha⟩
    · exact absurd (hidle.symm.trans ha) (by simp)
    · exact hanswered
  · have hleft : t.phase ≠ s.phase := hbusy ▸ hstays
    rcases (phaseAndCtrlTransitions s t e l he hstep).1 hleft with
      ⟨hidle, _⟩ | ⟨_, hdone, _⟩ | ⟨hdone, _⟩ | ⟨_, hr⟩
    · exact absurd (hbusy.symm.trans hidle) (by simp)
    · exact .inl hdone
    · exact absurd (hbusy.symm.trans hdone) (by simp)
    · exact absurd hr hreset

/-! ## Reaching `DONE` -/

/-- The run from `s` reaches `DONE` within `n` steps. -/
def State.EndsWithin (n : Nat) (s : State) : Prop := ∃ k t, k ≤ n ∧ Sys2Proof.core.run k s = .next t ∧ t.phase = .done

theorem endsWithin_of_done {s : State} (h : s.phase = .done) (n : Nat) : s.EndsWithin n := ⟨0, s, n.zero_le, rfl, h⟩

/-- A step with a next state comes off a run. -/
theorem run_succ_of_step {M : Host.Core} {k : Nat} {s t : M.State} (h : M.step s = .next t) :
    M.run (k + 1) s = M.run k t := by
  rw [Host.Core.run, h]

theorem endsWithin_of_step {s t : State} {n : Nat} (hstep : step s = .next t) (h : t.EndsWithin n) :
    s.EndsWithin (n + 1) := by
  obtain ⟨k, u, hk, hrun, hdone⟩ := h
  exact ⟨k + 1, u, Nat.succ_le_succ hk, (run_succ_of_step (M := Sys2Proof.core) hstep).trans hrun, hdone⟩

/-- Any events but resets come first: the command ends at one of them, or still runs after them, as ready as it was. -/
theorem State.Runs.endsWithin_append {n : Nat} {l : List Event} (h : List Event) {s : State} (hs : s.Runs (h ++ l))
    (hh : ∀ e ∈ h, e.wellFormed = true ∧ e ≠ .reset)
    (hend : ∀ t : State, t.Runs l → (s.Ready → t.Ready) → t.EndsWithin n) : s.EndsWithin (h.length + n) := by
  induction h generalizing s with
  | nil => simpa using hend s hs id
  | cons e h ih =>
    obtain ⟨⟨hwf, hreset⟩, hrest⟩ := List.forall_mem_cons.mp hh
    rw [List.length_cons, Nat.add_right_comm]
    obtain ⟨t, hstep, hdone | ⟨ht, hready⟩⟩ := hs.event hwf hreset
    · exact endsWithin_of_step hstep (endsWithin_of_done hdone _)
    · exact endsWithin_of_step hstep (ih ht hrest fun u hu hkeeps => hend u hu (hkeeps ∘ hready))

/-- A command that waits for no answer ends at the turn of the Engine, or before. -/
theorem State.Runs.endsWithin_of_ready {h l : List Event} {s : State} (hs : s.Runs (h ++ .turn .engine :: l))
    (hready : s.Ready) (hh : ∀ e ∈ h, e.wellFormed = true ∧ e ≠ .reset) : s.EndsWithin (h.length + 1) := by
  refine hs.endsWithin_append h hh fun t ⟨hinv, hbusy, he⟩ hkeeps => ?_
  have hdone : (engineTurn { t with events := l }).phase = .done :=
    State.Ready.engineTurn_done (s := { t with events := l }) (hkeeps hready) (hinv.runcmdBusy.mpr hbusy) hbusy
  exact endsWithin_of_step (step_turn hinv.held he) (endsWithin_of_done hdone 0)

/-- Any running command ends at the first turn of the Engine after an answer of the RBP, or before. -/
theorem State.Runs.endsWithin_of_answer {h1 h2 l : List Event} {s : State} {d : Answer}
    (hs : s.Runs (h1 ++ .turn (.rbp d) :: (h2 ++ .turn .engine :: l)))
    (hh1 : ∀ e ∈ h1, e.wellFormed = true ∧ e ≠ .reset) (hh2 : ∀ e ∈ h2, e.wellFormed = true ∧ e ≠ .reset) :
    s.EndsWithin (h1.length + (h2.length + 1 + 1)) := by
  refine hs.endsWithin_append h1 hh1 fun t ht _ => ?_
  obtain ⟨u, hstep, hu⟩ := ht.event rfl (by simp)
  obtain ⟨hinv, hbusy, he⟩ := ht
  refine endsWithin_of_step hstep ?_
  rcases hu with hdone | ⟨hruns, _⟩
  · exact endsWithin_of_done hdone _
  · obtain rfl := stepEffect_turn_eq (step_stepEffect he hstep)
    have hready := ready_rbpTurn (s := { t with events := h2 ++ .turn .engine :: l })
      (hinv.runcmdBusy.mpr hbusy) hbusy d
    exact hruns.endsWithin_of_ready hready hh2

/-- Settles O39: the command runs through the events before the turn it needs, and that turn ends it. -/
theorem runningCommandReachesDone : Obligations.RunningCommandReachesDone := by
  intro s h1 h2 l hinv hbusy hh
  obtain ⟨hh1, hh2⟩ := List.forall_mem_append.mp hh
  refine ⟨fun d he => (State.Runs.mk hinv hbusy he).endsWithin_of_answer hh1 hh2, fun hneeds he => ?_⟩
  have hready : s.Ready := by
    refine hneeds.imp_right fun hfails => .inl fun hcheck => ?_
    obtain ⟨hkey, hlen⟩ := sealCheck_none hcheck
    rcases hfails with ⟨h16, h32⟩ | hlong
    · exact hkey.elim h16 h32
    · omega
  exact (State.Runs.mk hinv hbusy he).endsWithin_of_ready hready hh1

end Sys2Proof.Machine
end

section
/-! SUPPORT. `SEAL` (R140 to R144): its acceptance, and every outcome of its `Complete` step as the registers it
leaves. -/

namespace Sys2Proof.Machine

/-! ## Acceptance -/

theorem startCommand_idle {c : RunCmd} {s : State} (h : s.phase = .idle) :
    startCommand c s = { s with phase := .busy, runcmd := c, bus := .okWrite } := if_pos h

theorem startCommand_not_idle {c : RunCmd} {s : State} (h : s.phase ≠ .idle) : startCommand c s = ignoreWrite s :=
  if_neg h

/-- The command word and the write of 1 to `CMD` are one and the same (R73). -/
theorem exec_seal {i : Instr} (h : i = .sealCmd ∨ i = .wr32Cmd 1) (s : State) :
    exec i s = .next (startCommand .sealing s) := by
  rcases h with rfl | rfl <;> rfl

/-- Settles O18: either form is `startCommand`, by the phase. -/
theorem sealAccepted : Obligations.SealAccepted := by
  intro s i hi
  rw [exec_seal hi]
  exact ⟨fun hidle => congrArg _ (startCommand_idle hidle), fun hnot => congrArg _ (startCommand_not_idle hnot)⟩

/-! ## The checks -/

theorem badKeyLength_iff_registers (s : State) : s.badKeyLength = true ↔ s.keylen ≠ 16 ∧ s.keylen ≠ 32 := by
  simp only [State.badKeyLength, Bool.and_eq_true, decide_eq_true_eq]

theorem sealCheck_badKey {s : State} (h : s.keylen ≠ 16 ∧ s.keylen ≠ 32) : sealCheck s = some .invalidKeyLength :=
  if_pos ((badKeyLength_iff_registers s).mpr h)

theorem sealCheck_tooLong {s : State} (hkey : ¬ (s.keylen ≠ 16 ∧ s.keylen ≠ 32))
    (hlen : s.params.bufBytes - 16 < s.ilen.toNat) : sealCheck s = some .lengthLimit := by
  rw [sealCheck, if_neg ((badKeyLength_iff_registers s).not.mpr hkey), if_pos hlen]

theorem sealCheck_passes {s : State} (hkey : ¬ (s.keylen ≠ 16 ∧ s.keylen ≠ 32))
    (hlen : s.ilen.toNat ≤ s.params.bufBytes - 16) : sealCheck s = none :=
  (sealCheck_eq_none_iff s).mpr ⟨by tauto, hlen⟩

/-! ## The commits -/

/-- The failure commit leaves exactly what R205 lists. -/
theorem raiseError_eq_failed (e : ErrCode) (s : State) : raiseError e s = s.failed e := rfl

/-- The success commit of a `SEAL` leaves exactly what R204 lists when the result has the length of the message
and a tag. -/
theorem commitSeal_eq_sealed {s : State} {out : List Byte} (n : Nonce) (h : out.length = s.ilen.toNat + 16) :
    commitSeal n out s = s.sealed n out := by
  have holen : BitVec.ofNat 32 out.length = s.ilen + 16 := by
    rw [h]
    bv_omega
  simp only [commitSeal, commitResult, holen]
  rfl

/-- A message that fits the buffer is all the bytes counted (R27). -/
theorem message_eq_take {s : State} (h : s.ilen.toNat ≤ s.params.bufBytes) :
    s.message = s.ibuf.take s.ilen.toNat := by
  rw [State.message, Nat.min_eq_left h]

/-- Under the invariant such a message has as many bytes as `ILEN` counts. -/
theorem State.Inv.message_length {s : State} (h : s.Inv) (hlen : s.ilen.toNat ≤ s.params.bufBytes) :
    s.message.length = s.ilen.toNat := by
  rw [message_eq_take hlen, List.length_take, h.ibufLength]
  omega

/-! ## `Complete` -/

/-- A step that takes a turn of the Engine off the sequence of a running `SEAL` is `Complete` (R141). -/
theorem step_completeSeal {s : State} {l : List Event} (hheld : s.held = true) (hp : s.phase = .busy)
    (hr : s.runcmd = .sealing) (he : s.events = .turn .engine :: l) :
    step s = .next (completeSeal { s with events := l }) := by
  rw [step_turn hheld he]
  exact congrArg _ (engineTurn_sealing (s := { s with events := l }) hp hr)

/-- The success commit of `Complete`, on the registers of R26 and R27 (R141). -/
theorem completeSeal_sealed {s : State} {n : Nonce} (h : s.Inv) (hcheck : sealCheck s = none)
    (ha : s.rbpReq = .answered (.ok n)) :
    completeSeal s = s.sealed n
      (gcmAe (cipherUnder (s.key.toList.take s.keylen.toNat)) n (s.ibuf.take s.ilen.toNat)) := by
  have hroom := (sealCheck_none hcheck).2
  have hlen : s.ilen.toNat ≤ s.params.bufBytes := by omega
  rw [completeSeal_ok hcheck ha, ← message_eq_take hlen]
  exact commitSeal_eq_sealed n (by rw [gcmAe_length, h.message_length hlen])

/-- Settles O25: the step is `Complete`, whose outcome the checks and the answer determine. -/
theorem sealCompletes : Obligations.SealCompletes := by
  intro s l hinv hp hr he r badKey
  have hrinv : r.Inv := hinv.withVisible s.ie s.proto s.bus s.result l
  rw [step_completeSeal hinv.held hp hr he]
  refine ⟨fun hbad => congrArg _ ?badKey, fun hgood hlong => congrArg _ ?tooLong,
    fun hgood hfits hfail => congrArg _ ?noNonce, fun n hgood hfits hok => congrArg _ ?sealed⟩
  case badKey => exact (completeSeal_check (sealCheck_badKey (s := r) hbad)).trans (raiseError_eq_failed _ r)
  case tooLong => exact (completeSeal_check (sealCheck_tooLong (s := r) hgood hlong)).trans (raiseError_eq_failed _ r)
  case noNonce =>
    exact (completeSeal_fail (sealCheck_passes (s := r) hgood hfits) hfail).trans (raiseError_eq_failed _ r)
  case sealed => exact completeSeal_sealed hrinv (sealCheck_passes (s := r) hgood hfits) hok

end Sys2Proof.Machine
end

section
/-! SUPPORT. `OPEN` (R150 to R155): its acceptance, every outcome of its `Complete` step as the registers it leaves, and
that the two kinds of rejection leave the same ones. -/

namespace Sys2Proof.Machine

/-! ## Acceptance -/

/-- The command word and the write of 2 to `CMD` are one and the same (R73). -/
theorem exec_open {i : Instr} (h : i = .openCmd ∨ i = .wr32Cmd 2) (s : State) :
    exec i s = .next (startCommand .opening s) := by
  rcases h with rfl | rfl <;> rfl

/-- Settles O19: either form is `startCommand`, by the phase. -/
theorem openAccepted : Obligations.OpenAccepted := by
  intro s i hi
  rw [exec_open hi]
  exact ⟨fun hidle => congrArg _ (startCommand_idle hidle), fun hnot => congrArg _ (startCommand_not_idle hnot)⟩

/-! ## The checks -/

/-- The checks of an `OPEN` in their order, on the registers (R151 to R154). -/
theorem openCheck_eq_registers (s : State) :
    openCheck s =
      if s.keylen ≠ 16 ∧ s.keylen ≠ 32 then some .invalidKeyLength
      else if s.noncelen ≠ 12 then some .invalidNonceLength
      else if s.params.bufBytes < s.ilen.toNat then some .lengthLimit
      else if s.ilen.toNat < 16 then some .authenticationFailure
      else none := by
  simp only [openCheck, badKeyLength_iff_registers]

/-! ## The commits -/

/-- The success commit of an `OPEN` leaves exactly what R204 lists when the result is the input without its tag. -/
theorem commitResult_eq_opened {s : State} {out : List Byte} (h : out.length + 16 = s.ilen.toNat) :
    commitResult out s = s.opened out := by
  have holen : BitVec.ofNat 32 out.length = s.ilen - 16 := by bv_omega
  simp only [commitResult, holen]
  rfl

/-- A failure commit keeps no register but `CTRL` and `PROTO` (R155, R205). -/
theorem failed_congr (e : ErrCode) {s u : State} (hie : s.ie = u.ie) (hproto : s.proto = u.proto)
    (hparams : s.params = u.params) (hcount : s.rbpRequests = u.rbpRequests) (hbus : s.bus = u.bus)
    (hresult : s.result = u.result) (hevents : s.events = u.events) : s.failed e = u.failed e := by
  simp only [State.failed, hie, hproto, hparams, hcount, hbus, hresult, hevents]

/-! ## `Complete` -/

/-- The arguments that an `OPEN` within the size limit gives `GCM_AD`, on the registers of R26 and R27. -/
theorem gcmAd_registers {s : State} (h : s.ilen.toNat ≤ s.params.bufBytes) :
    gcmAd (cipherUnder s.keyBytes) s.nonce s.message =
      gcmAd (cipherUnder (s.key.toList.take s.keylen.toNat)) s.nonce (s.ibuf.take s.ilen.toNat) := by
  rw [message_eq_take h, State.keyBytes]

/-- A step that takes a turn of the Engine off the sequence of a running `OPEN` is `Complete` (R151). -/
theorem step_completeOpen {s : State} {l : List Event} (hheld : s.held = true) (hp : s.phase = .busy)
    (hr : s.runcmd = .opening) (he : s.events = .turn .engine :: l) :
    step s = .next (completeOpen { s with events := l }) := by
  rw [step_turn hheld he]
  exact congrArg _ (engineTurn_opening (s := { s with events := l }) hp hr)

theorem completeOpen_failed {s : State} {e : ErrCode} (h : openCheck s = some e) : completeOpen s = s.failed e :=
  (completeOpen_check h).trans (raiseError_eq_failed e s)

/-- A tag mismatch ends in the failure commit (R154). -/
theorem completeOpen_rejected {s : State} (h : openCheck s = none)
    (hg : gcmAd (cipherUnder s.keyBytes) s.nonce s.message = none) :
    completeOpen s = s.failed .authenticationFailure :=
  (completeOpen_reject h hg).trans (raiseError_eq_failed _ s)

/-- The success commit of `Complete`, with the length of the plaintext in the registers of R28 (R151). -/
theorem completeOpen_opened {s : State} {p : List Byte} (h : s.Inv) (hcheck : openCheck s = none)
    (hg : gcmAd (cipherUnder s.keyBytes) s.nonce s.message = some p) : completeOpen s = s.opened p := by
  obtain ⟨_, _, htag, hfits⟩ := openCheck_none hcheck
  rw [completeOpen_accept hcheck hg]
  refine commitResult_eq_opened ?_
  rw [gcmAd_length hg, h.message_length hfits]
  omega

/-- Settles O26: the step is `Complete`, whose outcome the checks and `GCM_AD` determine. -/
theorem openCompletes : Obligations.OpenCompletes := by
  intro s l hinv hp hr he r ad
  have hrinv : r.Inv := hinv.withVisible s.ie s.proto s.bus s.result l
  have hcheck := openCheck_eq_registers r
  rw [step_completeOpen hinv.held hp hr he]
  refine congrArg _ ?_
  split_ifs with hkey hnonce hlong hshort
  · exact completeOpen_failed (hcheck.trans (if_pos hkey))
  · exact completeOpen_failed (by rw [hcheck, if_neg hkey, if_pos hnonce])
  · exact completeOpen_failed (by rw [hcheck, if_neg hkey, if_neg hnonce, if_pos hlong])
  · exact completeOpen_failed (by rw [hcheck, if_neg hkey, if_neg hnonce, if_neg hlong, if_pos hshort])
  · have hpasses : openCheck r = none := by
      rw [hcheck, if_neg hkey, if_neg hnonce, if_neg hlong, if_neg hshort]
    have hargs : gcmAd (cipherUnder r.keyBytes) r.nonce r.message = ad := gcmAd_registers (not_lt.mp hlong)
    cases had : ad with
    | none => exact completeOpen_rejected hpasses (hargs.trans had)
    | some p => exact completeOpen_opened hrinv hpasses (hargs.trans had)

/-! ## Authentication failures -/

/-- An `OPEN` that passes the checks on the key, the nonce and the size limit and is rejected, for a too short input or
by `GCM_AD`, ends in the failure commit of `AuthenticationFailure` (R154, R155). -/
theorem step_authenticationFailure {s : State} {l : List Event} (hinv : s.Inv) (hp : s.phase = .busy)
    (hr : s.runcmd = .opening) (he : s.events = .turn .engine :: l) (hkey : s.keylen = 16 ∨ s.keylen = 32)
    (hnonce : s.noncelen = 12) (hfits : s.ilen.toNat ≤ s.params.bufBytes)
    (hrejected : s.ilen.toNat < 16 ∨ gcmAd (cipherUnder s.keyBytes) s.nonce s.message = none) :
    step s = .next (State.failed .authenticationFailure { s with events := l }) := by
  have hgood : ¬ (s.keylen ≠ 16 ∧ s.keylen ≠ 32) := by tauto
  rw [openCompletes s l hinv hp hr he, if_neg hgood, if_neg (not_not.mpr hnonce), if_neg (not_lt.mpr hfits)]
  refine congrArg _ ?_
  split_ifs with hshort
  · rfl
  · rw [← gcmAd_registers hfits, hrejected.resolve_left hshort]

/-- Settles O27: each of the two ends in the failure commit, which forgets the key, the nonce and the message. -/
theorem authenticationFailuresIdentical : Obligations.AuthenticationFailuresIdentical := by
  intro s u l rejected ⟨hsinv, hsp, hsr, hse, hskey, hsnonce, hsfits, hsrejected⟩
    ⟨huinv, hup, hur, hue, hukey, hunonce, hufits, hurejected⟩ hie hproto hparams hcount hbus hresult
  calc step s
      = .next (State.failed .authenticationFailure { s with events := l }) :=
        step_authenticationFailure hsinv hsp hsr hse hskey hsnonce hsfits hsrejected
    _ = .next (State.failed .authenticationFailure { u with events := l }) :=
        congrArg _ (failed_congr _ hie hproto hparams hcount hbus hresult rfl)
    _ = step u := (step_authenticationFailure huinv hup hur hue hukey hunonce hufits hurejected).symm

end Sys2Proof.Machine
end

section
/-! SUPPORT. The host operations of 45_control.md (R160 to R166): the write of `CTRL`, the three pushes, the pop, `CLEAR` and
the reserved command words. -/

namespace Sys2Proof.Machine

/-! ## `CTRL` -/

/-- Bit 0 of a value is its parity. -/
theorem getLsbD_zero_eq_parity (v : Word) : v.getLsbD 0 = decide (v.toNat % 2 = 1) := Nat.testBit_zero v.toNat

/-- Settles O11: the write is `writeCtrl`, which stores bit 0. -/
theorem ctrlWriteSetsIe : Obligations.CtrlWriteSetsIe := by
  intro v s
  rw [← getLsbD_zero_eq_parity]
  exact ⟨writeCtrl v s, rfl, rfl, rfl⟩

/-! ## Pushes -/

/-- A byte written to the place `n` of a register: no place of the register changes when `n` is beyond its end. -/
theorem getElem_setIfInBounds_at {m : Nat} (old : Vector Byte m) (n : Nat) (v : Byte) {i : Nat} (hi : i < m) :
    (old.setIfInBounds n v)[i] = if i = n then v else old[i] := by
  rw [Vector.getElem_setIfInBounds hi]
  simp only [eq_comm]

/-- Settles O12: in `IDLE` the push writes the place `KEYLEN` and the count saturates; otherwise it is ignored. -/
theorem pushOnKeyin : Obligations.PushOnKeyin := by
  refine fun v s => ⟨fun hidle => ?_, fun hnot => congrArg _ (pushKey_ignored hnot)⟩
  have hexec : exec (.wr8Keyin v) s = .next (pushKey v s) := rfl
  rw [pushKey_idle hidle] at hexec
  exact ⟨_, hexec, rfl, fun i hi => getElem_setIfInBounds_at s.key _ v hi,
    toNat_saturated _ _ (by decide)⟩

/-- Settles O13: in `IDLE` the push writes the place `NONCELEN` and the count saturates; otherwise it is ignored. -/
theorem pushOnNoncein : Obligations.PushOnNoncein := by
  refine fun v s => ⟨fun hidle => ?_, fun hnot => congrArg _ (pushNonce_ignored hnot)⟩
  have hexec : exec (.wr8Noncein v) s = .next (pushNonce v s) := rfl
  rw [pushNonce_idle hidle] at hexec
  exact ⟨_, hexec, rfl, fun i hi => getElem_setIfInBounds_at s.nonce _ v hi,
    toNat_saturated _ _ (by decide)⟩

/-- The end of the bytes kept is the place `n` while there is room, and nothing is kept beyond `m` bytes (R27, R165). -/
theorem getElem?_append_if_room {l : List Byte} {n m : Nat} (hlen : l.length = min n m) (v : Byte) (i : Nat) :
    (if n < m then l ++ [v] else l)[i]? = if i = n ∧ i < m then some v else l[i]? := by
  by_cases hroom : n < m
  · obtain rfl : n = l.length := by omega
    rw [if_pos hroom, List.getElem?_append]
    rcases lt_trichotomy i l.length with hlt | rfl | hgt
    · rw [if_pos hlt, if_neg (by omega)]
    · simp [hroom]
    · rw [if_neg (by omega), if_neg (by omega), List.getElem?_eq_none (by simp; omega),
        List.getElem?_eq_none (by omega)]
  · rw [if_neg hroom, if_neg (by omega)]

/-- Settles O14: in `IDLE` the push appends to the bytes kept while there is room and the count saturates; otherwise it is
ignored. -/
theorem pushOnDin : Obligations.PushOnDin := by
  refine fun v s => ⟨fun hidle hlen => ?_, fun hnot => congrArg _ (pushData_ignored hnot)⟩
  have hexec : exec (.wr8Din v) s = .next (pushData v s) := rfl
  rw [pushData_idle hidle] at hexec
  exact ⟨_, hexec, rfl, getElem?_append_if_room hlen v,
    toNat_saturated _ _ (bufBytes_lt s.params)⟩

/-! ## The pop -/

/-- There is no result before a command is done, and none after it has failed (R28, R205). -/
theorem State.Inv.olen_zero {s : State} (h : s.Inv) (hnone : s.phase ≠ .done ∨ s.err ≠ .none) : s.olen = 0 := by
  by_cases hdone : s.phase = .done
  · exact (h.failureWiped hdone (hnone.resolve_left (not_not.mpr hdone))).1
  · exact h.noResult hdone

/-- Settles O15: the pop by `OPTR` and `OLEN`, and `OLEN` = 0 where there is no result. -/
theorem popOnDout : Obligations.PopOnDout := by
  refine fun s => ⟨fun hleft => congrArg _ (popData_some hleft),
    fun hempty => congrArg _ (popData_empty (not_lt.mpr hempty)), fun hinv hnone => congrArg _ (popData_empty ?_)⟩
  simp [hinv.olen_zero hnone]

/-! ## `CLEAR` and the reserved commands -/

theorem clearCore_busy {s : State} (h : s.phase = .busy) : clearCore s = ignoreWrite s := if_pos h

theorem clearCore_not_busy {s : State} (h : s.phase ≠ .busy) :
    clearCore s =
      { s with
        key := Vector.replicate 32 0, keylen := 0, nonce := Vector.replicate 12 0, noncelen := 0
        ibuf := [], ilen := 0, obuf := [], olen := 0, optr := 0, err := .none, proto := false, phase := .idle
        bus := .okWrite } := if_neg h

/-- The command word and the write of 3 to `CMD` are one and the same (R73). -/
theorem exec_clear {i : Instr} (h : i = .clearCmd ∨ i = .wr32Cmd 3) (s : State) : exec i s = .next (clearCore s) := by
  rcases h with rfl | rfl <;> rfl

/-- Settles O20: either form is `clearCore`, by the phase; `clearCore_wiped` where the invariant holds. -/
theorem clearWipes : Obligations.ClearWipes := by
  intro s i hi
  rw [exec_clear hi]
  exact ⟨fun hnot => congrArg _ (clearCore_not_busy hnot), fun hnot hinv => congrArg _ (clearCore_wiped hinv hnot),
    fun hbusy => congrArg _ (clearCore_busy hbusy)⟩

theorem writeCommand_reserved {v : Word} (h1 : v ≠ 1) (h2 : v ≠ 2) (h3 : v ≠ 3) (s : State) :
    writeCommand v s = ignoreWrite s := by
  rw [writeCommand, if_neg h1, if_neg h2, if_neg h3]

/-- Settles O21: a write of `CMD` that is none of the three commands is ignored. -/
theorem reservedCommandIgnored : Obligations.ReservedCommandIgnored :=
  fun _ s h1 h2 h3 => congrArg _ (writeCommand_reserved h1 h2 h3 s)

end Sys2Proof.Machine
end

section
/-! SUPPORT. `PROTO` (R24, R168): what each operation of a step does to it, and the complete list of what sets and clears
it. -/

namespace Sys2Proof.Machine

/-! ## Operations -/

/-- A push sets it exactly when it is ignored (R167, R168). -/
theorem push_proto (v : Byte) (s : State) :
    ((pushKey v s).proto = true ↔ s.phase ≠ .idle ∨ s.proto = true) ∧
    ((pushNonce v s).proto = true ↔ s.phase ≠ .idle ∨ s.proto = true) ∧
    ((pushData v s).proto = true ↔ s.phase ≠ .idle ∨ s.proto = true) := by
  by_cases h : s.phase = .idle
  · simp [pushKey_idle h, pushNonce_idle h, pushData_idle h, h]
  · simp [push_ignored h, h]

theorem startCommand_proto (c : RunCmd) (s : State) :
    (startCommand c s).proto = true ↔ s.phase ≠ .idle ∨ s.proto = true := by
  rcases startCommand_cases c s with ⟨h, he⟩ | ⟨h, he⟩ <;> simp [he, h]

/-- After `CLEAR` it is 1 only if the `CLEAR` was itself ignored (R160). -/
theorem clearCore_proto (s : State) : (clearCore s).proto = true ↔ s.phase = .busy := by
  rcases clearCore_cases s with ⟨h, he⟩ | ⟨h, he⟩ <;> simp [he, h]

/-- A pop sets it when the pointer stands at the end of the result (R166). -/
theorem popData_proto {s : State} (hptr : s.optr ≤ s.olen.toNat) :
    (popData s).proto = true ↔ s.optr = s.olen.toNat ∨ s.proto = true := by
  by_cases h : s.optr < s.olen.toNat
  · simp [popData_some h, h.ne]
  · simp [popData_empty h, show s.optr = s.olen.toNat by omega]

/-! ## Turns -/

theorem completeSeal_proto (s : State) : (completeSeal s).proto = s.proto := by
  rcases completeSeal_cases s with ⟨_, _, he⟩ | ⟨_, _, he⟩ | ⟨_, _, he⟩ | ⟨_, _, _, he⟩ <;> simp [he]

theorem completeOpen_proto (s : State) : (completeOpen s).proto = s.proto := by
  rcases completeOpen_cases s with ⟨_, _, he⟩ | ⟨_, _, he⟩ | ⟨_, _, _, he⟩ <;> simp [he]

theorem engineTurn_proto (s : State) : (engineTurn s).proto = s.proto := by
  rcases engineTurn_cases s with ⟨_, _, he⟩ | ⟨_, _, he⟩ | ⟨_, he⟩ <;> rw [he]
  · exact completeSeal_proto s
  · exact completeOpen_proto s

theorem requestTurn_proto (s : State) : (requestTurn s).proto = s.proto := by
  rcases requestTurn_cases s with ⟨_, _, he⟩ | ⟨_, he⟩ <;> rw [he]
  exact issueRequest_proto s

theorem rbpTurn_proto (draw : Answer) (s : State) : (rbpTurn draw s).proto = s.proto := by
  rcases rbpTurn_cases draw s with ⟨_, _, he⟩ | ⟨_, _, he⟩ | ⟨_, he⟩ <;> rw [he]

/-- No turn sets or clears it: both commits leave it alone (R168, R204, R205). -/
theorem takeTurn_proto (s : State) (u : Turn) : (takeTurn s u).proto = s.proto := by
  cases u with
  | engine => exact engineTurn_proto s
  | request => exact requestTurn_proto s
  | rbp draw => exact rbpTurn_proto draw s
  | otherRequest => rfl

/-! ## Host instructions -/

/-- Both forms of a command are ignored in the same phases (R73, R167). -/
theorem ignored_of_command {i c : Instr} (h : i.command = some c) (ph : Phase) : i.ignored ph = c.ignored ph := by
  unfold Instr.command at h
  split at h
  case h_4 v =>
    split_ifs at h with h1 h2 h3 <;> cases h
    · simp [Instr.ignored, h1]
    · simp [Instr.ignored, h2]
    · simp [Instr.ignored, h3]
  all_goals cases h
  all_goals rfl

theorem ne_rd8Dout_of_command {i c : Instr} (h : i.command = some c) : i ≠ .rd8Dout := by
  rintro rfl
  cases h

/-- What a host instruction does to `PROTO`: an ignored write and an empty pop set it, and it stays set but for an
accepted `CLEAR` (R168). -/
theorem hostEffect_proto {i : Instr} {s t : State} (hptr : s.optr ≤ s.olen.toNat) (h : HostEffect i s t) :
    t.proto = true ↔ i.ignored s.phase = true ∨ (i = .rd8Dout ∧ s.optr = s.olen.toNat) ∨
      (s.proto = true ∧ i.command ≠ some .clearCmd) := by
  cases h with
  | read b hc hi hd => simp [hc, hi, hd]
  | pop hi => simp [hi, popData_proto hptr, Instr.ignored, Instr.command]
  | ctrl v hi => simp [hi, Instr.ignored, Instr.command]
  | keyin v hi => simp [hi, push_proto, Instr.ignored, Instr.command]
  | noncein v hi => simp [hi, push_proto, Instr.ignored, Instr.command]
  | din v hi => simp [hi, push_proto, Instr.ignored, Instr.command]
  | start hc =>
    rw [ignored_of_command hc]
    simp [hc, startCommand_proto, ne_rd8Dout_of_command hc, Instr.ignored]
  | startOpen hc =>
    rw [ignored_of_command hc]
    simp [hc, startCommand_proto, ne_rd8Dout_of_command hc, Instr.ignored]
  | clear hc =>
    rw [ignored_of_command hc]
    simp [hc, clearCore_proto, ne_rd8Dout_of_command hc, Instr.ignored]
  | ignore _ hi => simp [hi]

/-! ## Events -/

theorem decode_command_reserved {v : Word} (h1 : v ≠ 1) (h2 : v ≠ 2) (h3 : v ≠ 3) :
    decode (.command v) = .error .reservedCommand := by
  rw [decode, decodeCommand, if_neg h1, if_neg h2, if_neg h3]

/-- A reserved command word performs no instruction, and a step that takes it off the sequence ignores it (R74, R162). -/
theorem step_reservedCommand {s : State} {v : Word} {l : List Event} (hheld : s.held = true)
    (he : s.events = .word (.command v) :: l) (h1 : v ≠ 1) (h2 : v ≠ 2) (h3 : v ≠ 3) :
    (Event.word (.command v)).instr s.params = none ∧ step s = .next (ignoreWrite { s with events := l }) := by
  have hdecode := decode_command_reserved h1 h2 h3
  refine ⟨by rw [Event.instr, hdecode]; rfl, ?_⟩
  rw [step_word hheld he, hdecode]
  rfl

/-- Settles O32: a reserved command word sets it; any other event is a case of `StepEffect`, of which a host instruction
is `hostEffect_proto`, a reset clears it and the others leave it alone. -/
theorem protoSetExactlyBy : Obligations.ProtoSetExactlyBy := by
  intro s t e l hinv he hstep
  by_cases hreserved : ∃ v : Word, e = .word (.command v) ∧ v ≠ 1 ∧ v ≠ 2 ∧ v ≠ 3
  case pos =>
    obtain ⟨v, rfl, h1, h2, h3⟩ := hreserved
    obtain ⟨hinstr, hnext⟩ := step_reservedCommand hinv.held he h1 h2 h3
    obtain rfl : ignoreWrite { s with events := l } = t := by simpa [hstep] using hnext.symm
    rw [hinstr]
    exact ⟨fun _ => ⟨by simp, .inr ⟨v, rfl, h1, h2, h3⟩⟩, fun _ => rfl⟩
  case neg =>
    cases step_stepEffect he hstep with
    | @host _ i _ hi _ ht =>
      have hreset : e ≠ .reset := by
        rintro rfl
        cases hi
      have hproto := hostEffect_proto (s := { s with events := l }) hinv.optrRange ht
      rw [show e.instr s.params = some i from hi]
      exact hproto.trans (and_iff_right hreset).symm
    | illegal hi hr =>
      rw [show e.instr s.params = none from hi]
      exact ⟨fun hp => ⟨hr, .inl hp⟩, fun ⟨_, hp⟩ => hp.resolve_right hreserved⟩
    | outside hi hr =>
      rw [show e.instr s.params = none from hi]
      exact ⟨fun hp => ⟨hr, .inl hp⟩, fun ⟨_, hp⟩ => hp.resolve_right hreserved⟩
    | reserved v h1 h2 h3 => exact absurd ⟨v, rfl, h1, h2, h3⟩ hreserved
    | turn u => simp [takeTurn_proto, Event.instr]
    | reset => simp

end Sys2Proof.Machine
end

section
/-! SUPPORT. What the host wrapper rests on (R181, R182, R187, R189): a push on a saturated count, so that a driver may stop
one byte past the limit, and the hex codec. -/

namespace Sys2Proof.Machine

/-! ## Scripts of one push per byte -/

theorem runScript_map_fixed {f : Byte → Instr} {t : State} (h : ∀ b, transact (f b) t = t) (l : List Byte) :
    runScript (l.map f) t = t := by
  induction l with
  | nil => rfl
  | cons b l ih => rw [List.map_cons, runScript_cons, h b, ih]

/-- The response of a script is that of its last transaction. -/
theorem runScript_map_bus {f : Byte → Instr} {r : BusResponse} (h : ∀ b s, (transact (f b) s).bus = r) {l : List Byte}
    (hl : l ≠ []) (s : State) : (runScript (l.map f) s).bus = r := by
  rw [← List.dropLast_concat_getLast hl, List.map_append, runScript_append]
  exact h _ _

/-- A script that leaves a state which its instructions no longer change may stop there. -/
theorem runScript_map_take {f : Byte → Instr} {n : Nat} {l : List Byte} {s : State}
    (h : n < l.length → ∀ b, transact (f b) (runScript ((l.take n).map f) s) = runScript ((l.take n).map f) s) :
    runScript (l.map f) s = runScript ((l.take n).map f) s := by
  rcases Nat.lt_or_ge n l.length with hlong | hshort
  · conv_lhs => rw [← List.take_append_drop n l, List.map_append, runScript_append]
    exact runScript_map_fixed (h hlong) _
  · rw [List.take_of_length_le hshort]

theorem take_ne_nil {l : List Byte} {n : Nat} (hn : 0 < n) (h : n < l.length) : l.take n ≠ [] :=
  List.ne_nil_of_length_pos (by rw [List.length_take]; omega)

/-! ## Pushes on a saturated count -/

theorem push_bus (v : Byte) (s : State) :
    (pushKey v s).bus = .okWrite ∧ (pushNonce v s).bus = .okWrite ∧ (pushData v s).bus = .okWrite := by
  by_cases h : s.phase = .idle
  · simp [pushKey_idle h, pushNonce_idle h, pushData_idle h]
  · simp [push_ignored h, ignoreWrite]

/-- One more push leaves a saturated count at its limit `m`. -/
theorem ofNat_saturated {w : Word} {m : Nat} (h : w.toNat = m) : BitVec.ofNat 32 (min (w.toNat + 1) m) = w := by
  rw [Nat.min_eq_right (by omega), ← h, BitVec.ofNat_toNat, BitVec.setWidth_eq]

theorem pushKey_saturated {t : State} (hp : t.phase = .idle) (hlen : t.keylen.toNat = 33) (hbus : t.bus = .okWrite)
    (v : Byte) : pushKey v t = t := by
  rw [pushKey_idle hp, ofNat_saturated hlen, Vector.setIfInBounds_eq_of_size_le (by omega), ← hbus]

theorem pushNonce_saturated {t : State} (hp : t.phase = .idle) (hlen : t.noncelen.toNat = 13) (hbus : t.bus = .okWrite)
    (v : Byte) : pushNonce v t = t := by
  rw [pushNonce_idle hp, ofNat_saturated hlen, Vector.setIfInBounds_eq_of_size_le (by omega), ← hbus]

theorem pushData_saturated {t : State} (hp : t.phase = .idle) (hlen : t.ilen.toNat = t.params.bufBytes + 1)
    (hbus : t.bus = .okWrite) (v : Byte) : pushData v t = t := by
  rw [pushData_idle hp, ofNat_saturated hlen, if_neg (by omega), ← hbus]

/-! ## Stopping one byte past the limit -/

theorem pushed_of_count_zero {m : Nat} (v : Vector Byte m) {w : Word} (h : w = 0) : Pushed v v w.toNat [] := by
  rw [h]
  exact pushed_nil v

theorem runScript_pushKeyScript_take {s : State} (hp : s.phase = .idle) (hlen : s.keylen = 0) (l : List Byte) :
    runScript (pushKeyScript l) s = runScript (pushKeyScript (l.take 33)) s := by
  refine runScript_map_take fun hlong b => ?_
  have hbus := runScript_map_bus (f := .wr8Keyin) (fun b s => (push_bus b s).1) (take_ne_nil (by decide) hlong) s
  obtain ⟨key, keylen, bus, he, hcount, -⟩ :=
    runScript_pushKeyScript (l.take 33) hp (pushed_of_count_zero s.key hlen)
  rw [pushKeyScript] at he
  rw [he] at hbus ⊢
  exact pushKey_saturated (t := s.withKey key keylen bus) hp (hcount.trans (by simp; omega)) hbus b

theorem runScript_pushNonceScript_take {s : State} (hp : s.phase = .idle) (hlen : s.noncelen = 0) (l : List Byte) :
    runScript (pushNonceScript l) s = runScript (pushNonceScript (l.take 13)) s := by
  refine runScript_map_take fun hlong b => ?_
  have hbus := runScript_map_bus (f := .wr8Noncein) (fun b s => (push_bus b s).2.1) (take_ne_nil (by decide) hlong) s
  obtain ⟨nonce, noncelen, bus, he, hcount, -⟩ :=
    runScript_pushNonceScript (l.take 13) hp (pushed_of_count_zero s.nonce hlen)
  rw [pushNonceScript] at he
  rw [he] at hbus ⊢
  exact pushNonce_saturated (t := s.withNonce nonce noncelen bus) hp (hcount.trans (by simp; omega)) hbus b

theorem runScript_pushDataScript_take {s : State} (hp : s.phase = .idle) (hlen : s.ilen = 0) (hbuf : s.ibuf = [])
    (l : List Byte) :
    runScript (pushDataScript l) s = runScript (pushDataScript (l.take (s.params.bufBytes + 1))) s := by
  refine runScript_map_take fun hlong b => ?_
  have hbus := runScript_map_bus (f := .wr8Din) (fun b s => (push_bus b s).2.2) (take_ne_nil (Nat.succ_pos _) hlong) s
  obtain ⟨ilen, bus, he, hcount⟩ :=
    runScript_pushDataScript (l.take (s.params.bufBytes + 1)) hp (l₀ := []) hbuf (by simp [hlen])
  rw [pushDataScript] at he
  rw [he] at hbus ⊢
  refine pushData_saturated (t := s.withInput _ ilen bus) hp (hcount.trans ?_) hbus b
  change min _ (s.params.bufBytes + 1) = s.params.bufBytes + 1
  rw [List.nil_append, List.length_take]
  omega

/-- Settles O17: what the pushes of a whole string leave, from the empty register, and that the state no longer changes one
byte past the limit. -/
theorem pushedStringsAndSaturation : Obligations.PushedStringsAndSaturation := by
  refine fun s l hp => ⟨fun hlen => ?_, fun hlen => ?_, fun hlen hbuf => ?_⟩
  · have htake := runScript_pushKeyScript_take hp hlen l
    obtain ⟨key, keylen, bus, he, hcount, hbytes⟩ := runScript_pushKeyScript l hp (pushed_of_count_zero s.key hlen)
    rw [he] at htake ⊢
    exact ⟨hbytes, hcount, htake⟩
  · have htake := runScript_pushNonceScript_take hp hlen l
    obtain ⟨nonce, noncelen, bus, he, hcount, hbytes⟩ := runScript_pushNonceScript l hp (pushed_of_count_zero s.nonce hlen)
    rw [he] at htake ⊢
    exact ⟨hbytes, hcount, htake⟩
  · have htake := runScript_pushDataScript_take hp hlen hbuf l
    obtain ⟨ilen, bus, he, hcount⟩ := runScript_pushDataScript l hp (l₀ := []) hbuf (by simp [hlen])
    rw [he] at htake ⊢
    exact ⟨rfl, hcount, htake⟩

/-! ## Hex digits -/

theorem hexDigits_getElem? {n : Nat} (h : n < 16) : hexDigits[n]? = some (hexDigit n) := by
  have hlen : n < hexDigits.length := h
  rw [hexDigit, List.getD_eq_getElem _ _ hlen, List.getElem?_eq_getElem hlen]

theorem hexVal_hexDigit {n : Nat} (h : n < 16) : hexVal (hexDigit n) = some n := by
  interval_cases n <;> rfl

/-- The three ranges of hex digits, by the value (R182). -/
theorem hexVal_eq_some {c : Char} {v : Nat} :
    hexVal c = some v ↔ (v < 10 ∧ c.toNat = 0x30 + v) ∨ (10 ≤ v ∧ v < 16 ∧ c.toNat = 0x57 + v) ∨
      (10 ≤ v ∧ v < 16 ∧ c.toNat = 0x37 + v) := by
  unfold hexVal
  split_ifs <;> simp <;> omega

theorem hexVal_lt {c : Char} {v : Nat} (h : hexVal c = some v) : v < 16 := by
  rw [hexVal_eq_some] at h
  omega

/-- The upper-case hex digits (R182). -/
def hexUpperDigits : List Char := ['A', 'B', 'C', 'D', 'E', 'F']

theorem hexDigits_eq_some {c : Char} {v : Nat} :
    hexDigits[v]? = some c ↔ (v < 10 ∧ c.toNat = 0x30 + v) ∨ (10 ≤ v ∧ v < 16 ∧ c.toNat = 0x57 + v) := by
  rcases Nat.lt_or_ge v 16 with hv | hv
  · interval_cases v <;> simp [hexDigits, ← Char.toNat_inj, eq_comm]
  · rw [List.getElem?_eq_none (show hexDigits.length ≤ v from hv)]
    simp
    omega

theorem hexUpperDigits_eq_some {c : Char} {v : Nat} :
    10 ≤ v ∧ hexUpperDigits[v - 10]? = some c ↔ 10 ≤ v ∧ v < 16 ∧ c.toNat = 0x37 + v := by
  refine and_congr_right fun hten => ?_
  rcases Nat.lt_or_ge v 16 with hv | hv
  · interval_cases v <;> simp [hexUpperDigits, ← Char.toNat_inj, eq_comm]
  · rw [List.getElem?_eq_none (show hexUpperDigits.length ≤ v - 10 from Nat.sub_le_sub_right hv 10)]
    simp
    omega

/-- The digits of either case are exactly the characters that have a value (R182). -/
theorem hexVal_iff (c : Char) (v : Nat) :
    hexVal c = some v ↔ hexDigits[v]? = some c ∨ (10 ≤ v ∧ hexUpperDigits[v - 10]? = some c) := by
  rw [hexVal_eq_some, hexDigits_eq_some, hexUpperDigits_eq_some, or_assoc]

/-! ## `HexEncode` -/

theorem hexEncode_cons (x : Byte) (b : List Byte) :
    hexEncode (x :: b) = hexDigit (x.toNat / 16) :: hexDigit (x.toNat % 16) :: hexEncode b := rfl

theorem byte_high_lt (x : Byte) : x.toNat / 16 < 16 := by have := x.isLt; omega

theorem byte_low_lt (x : Byte) : x.toNat % 16 < 16 := Nat.mod_lt _ (by decide)

theorem hexEncode_getElem? (b : List Byte) (i : Nat) (h : i < b.length) :
    (hexEncode b)[2 * i]? = hexDigits[b[i].toNat / 16]? ∧ (hexEncode b)[2 * i + 1]? = hexDigits[b[i].toNat % 16]? := by
  induction b generalizing i with
  | nil => exact absurd h (Nat.not_lt_zero i)
  | cons x b ih =>
    cases i with
    | zero =>
      rw [List.getElem_cons_zero, hexDigits_getElem? (byte_high_lt x), hexDigits_getElem? (byte_low_lt x)]
      exact ⟨rfl, rfl⟩
    | succ i => exact ih i (Nat.lt_of_succ_lt_succ h)

theorem hexEncode_length (b : List Byte) : (hexEncode b).length = 2 * b.length := by
  induction b with
  | nil => rfl
  | cons x b ih => rw [hexEncode_cons, List.length_cons, List.length_cons, ih, List.length_cons]; omega

/-! ## `HexDecode` -/

theorem hexDecode_cons_cons {a b : Char} {rest : List Char} {x y : Nat} {l : List Byte} (ha : hexVal a = some x)
    (hb : hexVal b = some y) (hl : hexDecode rest = .ok l) :
    hexDecode (a :: b :: rest) = .ok (BitVec.ofNat 8 (16 * x + y) :: l) := by
  rw [hexDecode, ha, hb, hl]

theorem hexDecode_cons_cons_error {a b : Char} {rest : List Char}
    (h : hexVal a = none ∨ hexVal b = none ∨ hexDecode rest = .error .decodeError) :
    hexDecode (a :: b :: rest) = .error .decodeError := by
  rw [hexDecode]
  split
  next ha hb hl => simp [ha, hb, hl] at h
  next => rfl

theorem hexDecode_hexEncode (b : List Byte) : hexDecode (hexEncode b) = .ok b := by
  induction b with
  | nil => rfl
  | cons x b ih =>
    rw [hexEncode_cons, hexDecode_cons_cons (hexVal_hexDigit (byte_high_lt x)) (hexVal_hexDigit (byte_low_lt x)) ih,
      Nat.div_add_mod, BitVec.ofNat_toNat, BitVec.setWidth_eq]

/-- A string that is no hex string: of odd length, or with a character that is no hex digit (R182). -/
def HexMalformed (cs : List Char) : Prop := cs.length % 2 = 1 ∨ ∃ c ∈ cs, hexVal c = none

theorem not_hexMalformed_nil : ¬ HexMalformed [] := by simp [HexMalformed]

theorem hexMalformed_cons_cons {a b : Char} {rest : List Char} :
    HexMalformed (a :: b :: rest) ↔ hexVal a = none ∨ hexVal b = none ∨ HexMalformed rest := by
  have hparity : (a :: b :: rest).length % 2 = rest.length % 2 := Nat.add_mod_right _ 2
  rw [HexMalformed, HexMalformed, hparity, List.exists_mem_cons_iff, List.exists_mem_cons_iff]
  tauto

theorem hexDecode_malformed (cs : List Char) (h : HexMalformed cs) : hexDecode cs = .error .decodeError := by
  induction cs using List.twoStepInduction with
  | nil => exact absurd h not_hexMalformed_nil
  | singleton a => rfl
  | cons_cons a b rest ih _ =>
    exact hexDecode_cons_cons_error ((hexMalformed_cons_cons.mp h).imp_right (Or.imp_right ih))

/-- The value of a decoded pair fits a byte. -/
theorem toNat_hexPair {a b : Char} {x y : Nat} (ha : hexVal a = some x) (hb : hexVal b = some y) :
    (BitVec.ofNat 8 (16 * x + y)).toNat = 16 * x + y := by
  have hx := hexVal_lt ha
  have hy := hexVal_lt hb
  rw [BitVec.toNat_ofNat]
  omega

theorem hexDecode_wellFormed (cs : List Char) (h : ¬ HexMalformed cs) :
    ∃ b, hexDecode cs = .ok b ∧ 2 * b.length = cs.length ∧
      ∀ i, i < b.length → (b.getD i 0).toNat =
        16 * (hexVal (cs.getD (2 * i) '0')).getD 0 + (hexVal (cs.getD (2 * i + 1) '0')).getD 0 := by
  induction cs using List.twoStepInduction with
  | nil => exact ⟨[], rfl, rfl, fun i hi => absurd hi (Nat.not_lt_zero i)⟩
  | singleton a => exact absurd (.inl rfl) h
  | cons_cons a b rest ih _ =>
    rw [hexMalformed_cons_cons, not_or, not_or] at h
    obtain ⟨ha, hb, hrest⟩ := h
    obtain ⟨x, ha⟩ := Option.ne_none_iff_exists'.mp ha
    obtain ⟨y, hb⟩ := Option.ne_none_iff_exists'.mp hb
    obtain ⟨l, hl, hlen, hbytes⟩ := ih hrest
    refine ⟨_, hexDecode_cons_cons ha hb hl, by simp only [List.length_cons]; omega, fun i hi => ?_⟩
    cases i with
    | zero => simp [ha, hb, toNat_hexPair ha hb]
    | succ i => exact hbytes i (Nat.lt_of_succ_lt_succ hi)

/-! ## `Open` before the hardware -/

theorem openFn_decoded {cs ns : List Char} {c n : List Byte} (hc : hexDecode cs = .ok c) (hn : hexDecode ns = .ok n)
    (key : List Byte) (sched : List (List Turn)) (s : State) : openFn key cs ns sched s = drvOpen key c n sched s := by
  rw [openFn, hc, hn]

/-- `Open` decides `DecodeError` in software: the state is the one it was called in (R187). -/
theorem openFn_malformed {cs ns : List Char} (h : HexMalformed cs ∨ HexMalformed ns) (key : List Byte)
    (sched : List (List Turn)) (s : State) : openFn key cs ns sched s = some (.error .decodeError, s) := by
  by_cases hcs : HexMalformed cs
  · rw [openFn, hexDecode_malformed cs hcs]
  · obtain ⟨c, hc, -⟩ := hexDecode_wellFormed cs hcs
    rw [openFn, hc, hexDecode_malformed ns (h.resolve_left hcs)]

/-- Settles O58: the digits by their code points, the two directions by induction over the bytes and over the pairs of
characters, and `Open` by which of the two strings is malformed. -/
theorem hexCodec : Obligations.HexCodec :=
  ⟨hexEncode_getElem?, fun b => ⟨hexEncode_length b, hexDecode_hexEncode b⟩, hexVal_iff, hexDecode_malformed,
    hexDecode_wellFormed, fun key _ _ sched s h => openFn_malformed h key sched s,
    fun key _ _ _ _ sched s hc hn => openFn_decoded hc hn key sched s⟩

end Sys2Proof.Machine
end

section
/-! SUPPORT. Reset (R38, R230), and that the CORE never halts (R243, R244). -/

namespace Sys2Proof.Machine

/-! ## Reset -/

/-- A reset needs no valid state: it skips the check of U8 that every other event makes (R230). -/
theorem step_reset {s : State} {l : List Event} (he : s.events = .reset :: l) :
    step s = .next (resetCore { s with events := l }) := step_cons he

/-- Settles O24: the step is `resetCore`, which is the table of R38, and `irq` is low because `IE` is 0. -/
theorem resetValues : Obligations.ResetValues :=
  fun s l he => ⟨resetCore { s with events := l }, step_reset he, rfl, irq_low (.inl rfl)⟩

/-! ## The CORE never halts -/

/-- What a run that never halts keeps: the invariant, and no malformed text among the events to come. -/
structure State.Live (s : State) : Prop where
  inv : s.Inv
  wellFormed : ∀ e ∈ s.events, e.wellFormed = true

/-- Every live state has a next state, and it is live. -/
theorem State.Live.step {s : State} (h : s.Live) : ∃ t, step s = .next t ∧ t.Live := by
  cases he : s.events with
  | nil => exact ⟨s, step_nil he, h⟩
  | cons e l =>
    obtain ⟨hwf, hrest⟩ := List.forall_mem_cons.mp (he ▸ h.wellFormed)
    obtain ⟨t, ht⟩ := runEvent_wellFormed_next (s := { s with events := l }) h.inv.held hwf
    have hstep : Machine.step s = .next t := (step_cons he).trans ht
    have hevents : t.events = l := (stepEffect_params_events (step_stepEffect he hstep)).2
    exact ⟨t, hstep, stepKeepsInvariant s t h.inv hstep, hevents ▸ hrest⟩

/-- A live state runs for any number of steps. -/
theorem State.Live.run {s : State} (h : s.Live) (k : Nat) : ∃ t, Sys2Proof.core.run k s = .next t := by
  induction k generalizing s with
  | zero => exact ⟨s, rfl⟩
  | succ k ih =>
    obtain ⟨u, hstep, hu⟩ := h.step
    obtain ⟨t, ht⟩ := ih hu
    exact ⟨t, (run_succ_of_step (M := Sys2Proof.core) hstep).trans ht⟩

/-- Settles O37: the start state is live, and a live state runs on. -/
theorem coreNeverHalts : Obligations.CoreNeverHalts :=
  fun p l k hl => State.Live.run ⟨start_inv p l, hl⟩ k

end Sys2Proof.Machine
end
